-- ==== Sys2Proof/Word.lean ====
section
/-!
DEFINITION. The word type of W256XU and its plainest arithmetic (00_scope.md R6, R10, R12; 10_state.md R27).
-/

namespace Sys2Proof

/-- A word: exactly 256 bits, bit 0 the least significant (R6, R10, R27). -/
abbrev Word := BitVec 256

/-- A byte: 8 bits (R6). -/
abbrev Byte := BitVec 8

/-- `word(n)` of R12: the word whose unsigned value is `n mod 2^256`, for any integer. -/
def word (n : Int) : Word := BitVec.ofInt 256 n

/-- `u(w)` of R12, as an unbounded integer. -/
def uval (w : Word) : Int := (w.toNat : Int)

/-- `s(w)` of R12: two's complement over the 256-bit field. -/
def sval (w : Word) : Int := w.toInt

/-- `ONES` of R10: all bits one. -/
def wordOnes : Word := BitVec.allOnes 256

/-- `MIN` of R10: only bit 255 set, the most negative signed value. -/
def wordMin : Word := BitVec.intMin 256

/-- `MAX_S` of R10: 2^255 - 1. -/
def wordMaxS : Word := BitVec.intMax 256

end Sys2Proof
end

