-- ==== Sys2Proof/Config.lean ====
section
/-!
DEFINITION. What an implementation fixes (00_scope.md R7) and the values the spec leaves free
(93_implementation_defined.md U6, U7).
-/

namespace Sys2Proof

/-- Width of the program counter (R7, D22). -/
def Config.pcBits : Nat := 32

/-- The greatest legal `CODE_LEN` (R7, R8). -/
def Config.maxCodeLen : Nat := 2 ^ Config.pcBits - 34

/-- The default `STACK_LIMIT` (R7, D23). -/
def Config.defaultStackLimit : Nat := 1024

/-- `MEM_LIMIT` at `State.reset`: the value of the spec's vectors (R7 leaves it open). DESIGN CHOICE, log 3. -/
def Config.resetMemLimit : Nat := 2 ^ 20

/-- The unit in which `msize` grows (R59). -/
def Config.wordBytes : Nat := 32

/-- The characters `lookup_by_name` trims (R151): space, tab, line feed, and by U7's default carriage
return, vertical tab and form feed. -/
def Config.nameWhitespace : List Char :=
  [Char.ofNat 0x20, Char.ofNat 0x09, Char.ofNat 0x0a, Char.ofNat 0x0d, Char.ofNat 0x0b, Char.ofNat 0x0c]

/-- U6: which of the candidates `0x`, `0x0`, `0x00` is the compact form of the zero word. A free value, log 13. -/
opaque Config.compactZeroForm : Fin 3

/-- U6: whether the compact form of a word drops a leading zero digit. A free value, log 13. -/
opaque Config.compactDropsZeroDigit : Word → Bool

end Sys2Proof
end

