-- ==== Sys2Proof/Machine/Bytes.lean ====
section
/-!
DEFINITION. Bytes of a word and words of bytes (00_scope.md R11, R15; 20_memory.md R56; 40_alu_arithmetic.md R100).
-/

namespace Sys2Proof.Machine

/-- `byteLE(w, k)` of R11: index 0 is the least significant byte. -/
def byteLE (w : Word) (k : Nat) : Byte := w.extractLsb' (8 * k) 8

/-- `byteBE(w, i)` of R11: index 0 is the most significant byte. -/
def byteBE (w : Word) (i : Nat) : Byte := byteLE w (31 - i)

/-- The `n` least significant bytes of a word, most significant of them first (R72). -/
def wordBytesBE (n : Nat) (w : Word) : List Byte :=
  (List.range n).map fun j => byteLE w (n - 1 - j)

/-- `bytes32(w)`: the canonical form, 32 bytes, big-endian (R11, R56). -/
def bytes32 (w : Word) : List Byte :=
  (List.range 32).map fun i => byteBE w i

/-- `be(bytes)` of R15 with an accumulator: first byte most significant. -/
def beFrom (acc : Nat) : List Byte → Nat
  | [] => acc
  | b :: bs => beFrom (acc * 256 + b.toNat) bs

/-- `be(bytes)` of R15: the natural number a byte sequence spells in big-endian order; 0 for none. -/
def be (bytes : List Byte) : Nat := beFrom 0 bytes

/-- `word(be(d))`: the bytes given are the least significant ones (R100). -/
def packBytes (d : List Byte) : Word := word (be d : Int)

/-- The first `n` bytes of a list; where it has fewer, the missing bytes read as 0x00 (R52, R73). -/
def takePadded : Nat → List Byte → List Byte
  | 0, _ => []
  | n + 1, [] => 0 :: takePadded n []
  | n + 1, b :: bs => b :: takePadded n bs

/-- The bytes of a word of the opcode table: byte `k` is bits `8k+7 .. 8k`. -/
def tableBytes (nbits w : Nat) : List Byte :=
  (List.range (nbits / 8)).map fun k => BitVec.ofNat 8 (w / 2 ^ (8 * k))

end Sys2Proof.Machine
end

