-- ==== Sys2Proof/Syntax.lean ====
section
/-!
DEFINITION. The instructions (30_encoding.md R76, R82), one constructor per row of the opcode table, and the
record of the instruction table (R74, R75).
-/

namespace Sys2Proof

/-- The nine error kinds (60_exceptions.md R300), in the order of their codes. -/
inductive ErrorKind where
  | overflow
  | rangeError
  | illegalOperation
  | invalidInstruction
  | stackUnderflow
  | stackOverflow
  | invalidJump
  | outOfResource
  | callDepthExceeded
  deriving DecidableEq, Repr

/-- The unit class of an opcode: who executes it (R75). -/
inductive UnitClass where
  | alu
  | seq
  | ext
  deriving DecidableEq, Repr

/-- The record of an assigned opcode in the instruction table (R74). The four flags after `isCall` have a
meaning only when `isCall` holds. -/
structure OpInfo where
  value : Byte
  mnemonic : String
  pops : Nat
  pushes : Nat
  unitClass : UnitClass
  imm : Nat := 0
  isCall : Bool := false
  stateless : Bool := false
  hasValue : Bool := false
  static : Bool := false
  delegate : Bool := false
  deriving DecidableEq, Repr

/-- The instructions. PUSHn carries its immediate as the word it pushes (R73). The last four are functions of
the ALU port that have no opcode (R82); their operands are the port's inputs. -/
inductive Instr where
  | stop
  | add
  | mul
  | sub
  | div
  | sdiv
  | mod
  | smod
  | addmod
  | mulmod
  | exp
  | signextend
  | lt
  | gt
  | slt
  | sgt
  | eq
  | iszero
  | and
  | or
  | xor
  | not
  | byte
  | shl
  | shr
  | sar
  | sha3
  | address
  | balance
  | origin
  | caller
  | callvalue
  | calldataload
  | calldatasize
  | calldatacopy
  | codesize
  | codecopy
  | gasprice
  | extcodesize
  | extcodecopy
  | returndatasize
  | returndatacopy
  | extcodehash
  | blockhash
  | coinbase
  | timestamp
  | number
  | difficulty
  | gaslimit
  | pop
  | mload
  | mstore
  | mstore8
  | sload
  | sstore
  | jump
  | jumpi
  | pc
  | msize
  | gas
  | jumpdest
  | push1 (imm : Word)
  | push2 (imm : Word)
  | push3 (imm : Word)
  | push4 (imm : Word)
  | push5 (imm : Word)
  | push6 (imm : Word)
  | push7 (imm : Word)
  | push8 (imm : Word)
  | push9 (imm : Word)
  | push10 (imm : Word)
  | push11 (imm : Word)
  | push12 (imm : Word)
  | push13 (imm : Word)
  | push14 (imm : Word)
  | push15 (imm : Word)
  | push16 (imm : Word)
  | push17 (imm : Word)
  | push18 (imm : Word)
  | push19 (imm : Word)
  | push20 (imm : Word)
  | push21 (imm : Word)
  | push22 (imm : Word)
  | push23 (imm : Word)
  | push24 (imm : Word)
  | push25 (imm : Word)
  | push26 (imm : Word)
  | push27 (imm : Word)
  | push28 (imm : Word)
  | push29 (imm : Word)
  | push30 (imm : Word)
  | push31 (imm : Word)
  | push32 (imm : Word)
  | dup1
  | dup2
  | dup3
  | dup4
  | dup5
  | dup6
  | dup7
  | dup8
  | dup9
  | dup10
  | dup11
  | dup12
  | dup13
  | dup14
  | dup15
  | dup16
  | swap1
  | swap2
  | swap3
  | swap4
  | swap5
  | swap6
  | swap7
  | swap8
  | swap9
  | swap10
  | swap11
  | swap12
  | swap13
  | swap14
  | swap15
  | swap16
  | log0
  | log1
  | log2
  | log3
  | log4
  | create
  | call
  | callcode
  | return_
  | delegatecall
  | create2
  | staticcall
  | revert
  | selfdestruct
  | neg
  | isneg
  | rol
  | ror
  deriving DecidableEq, Repr

end Sys2Proof
end

