-- ==== Sys2Proof/WellFormed.lean ====
section
/-!
DEFINITION. When an instruction is well formed: the immediate of PUSHn is an `n`-byte value (30_encoding.md R73).
-/

namespace Sys2Proof

/-- The number of immediate bytes of an instruction (30_encoding.md R70, R74): `n` for PUSHn, else 0. -/
def Instr.immLen : Instr → Nat
  | .stop => 0
  | .add => 0
  | .mul => 0
  | .sub => 0
  | .div => 0
  | .sdiv => 0
  | .mod => 0
  | .smod => 0
  | .addmod => 0
  | .mulmod => 0
  | .exp => 0
  | .signextend => 0
  | .lt => 0
  | .gt => 0
  | .slt => 0
  | .sgt => 0
  | .eq => 0
  | .iszero => 0
  | .and => 0
  | .or => 0
  | .xor => 0
  | .not => 0
  | .byte => 0
  | .shl => 0
  | .shr => 0
  | .sar => 0
  | .sha3 => 0
  | .address => 0
  | .balance => 0
  | .origin => 0
  | .caller => 0
  | .callvalue => 0
  | .calldataload => 0
  | .calldatasize => 0
  | .calldatacopy => 0
  | .codesize => 0
  | .codecopy => 0
  | .gasprice => 0
  | .extcodesize => 0
  | .extcodecopy => 0
  | .returndatasize => 0
  | .returndatacopy => 0
  | .extcodehash => 0
  | .blockhash => 0
  | .coinbase => 0
  | .timestamp => 0
  | .number => 0
  | .difficulty => 0
  | .gaslimit => 0
  | .pop => 0
  | .mload => 0
  | .mstore => 0
  | .mstore8 => 0
  | .sload => 0
  | .sstore => 0
  | .jump => 0
  | .jumpi => 0
  | .pc => 0
  | .msize => 0
  | .gas => 0
  | .jumpdest => 0
  | .push1 _ => 1
  | .push2 _ => 2
  | .push3 _ => 3
  | .push4 _ => 4
  | .push5 _ => 5
  | .push6 _ => 6
  | .push7 _ => 7
  | .push8 _ => 8
  | .push9 _ => 9
  | .push10 _ => 10
  | .push11 _ => 11
  | .push12 _ => 12
  | .push13 _ => 13
  | .push14 _ => 14
  | .push15 _ => 15
  | .push16 _ => 16
  | .push17 _ => 17
  | .push18 _ => 18
  | .push19 _ => 19
  | .push20 _ => 20
  | .push21 _ => 21
  | .push22 _ => 22
  | .push23 _ => 23
  | .push24 _ => 24
  | .push25 _ => 25
  | .push26 _ => 26
  | .push27 _ => 27
  | .push28 _ => 28
  | .push29 _ => 29
  | .push30 _ => 30
  | .push31 _ => 31
  | .push32 _ => 32
  | .dup1 => 0
  | .dup2 => 0
  | .dup3 => 0
  | .dup4 => 0
  | .dup5 => 0
  | .dup6 => 0
  | .dup7 => 0
  | .dup8 => 0
  | .dup9 => 0
  | .dup10 => 0
  | .dup11 => 0
  | .dup12 => 0
  | .dup13 => 0
  | .dup14 => 0
  | .dup15 => 0
  | .dup16 => 0
  | .swap1 => 0
  | .swap2 => 0
  | .swap3 => 0
  | .swap4 => 0
  | .swap5 => 0
  | .swap6 => 0
  | .swap7 => 0
  | .swap8 => 0
  | .swap9 => 0
  | .swap10 => 0
  | .swap11 => 0
  | .swap12 => 0
  | .swap13 => 0
  | .swap14 => 0
  | .swap15 => 0
  | .swap16 => 0
  | .log0 => 0
  | .log1 => 0
  | .log2 => 0
  | .log3 => 0
  | .log4 => 0
  | .create => 0
  | .call => 0
  | .callcode => 0
  | .return_ => 0
  | .delegatecall => 0
  | .create2 => 0
  | .staticcall => 0
  | .revert => 0
  | .selfdestruct => 0
  | .neg => 0
  | .isneg => 0
  | .rol => 0
  | .ror => 0

/-- The immediate of an instruction; the zero word where it has none. -/
def Instr.imm : Instr → Word
  | .stop => 0
  | .add => 0
  | .mul => 0
  | .sub => 0
  | .div => 0
  | .sdiv => 0
  | .mod => 0
  | .smod => 0
  | .addmod => 0
  | .mulmod => 0
  | .exp => 0
  | .signextend => 0
  | .lt => 0
  | .gt => 0
  | .slt => 0
  | .sgt => 0
  | .eq => 0
  | .iszero => 0
  | .and => 0
  | .or => 0
  | .xor => 0
  | .not => 0
  | .byte => 0
  | .shl => 0
  | .shr => 0
  | .sar => 0
  | .sha3 => 0
  | .address => 0
  | .balance => 0
  | .origin => 0
  | .caller => 0
  | .callvalue => 0
  | .calldataload => 0
  | .calldatasize => 0
  | .calldatacopy => 0
  | .codesize => 0
  | .codecopy => 0
  | .gasprice => 0
  | .extcodesize => 0
  | .extcodecopy => 0
  | .returndatasize => 0
  | .returndatacopy => 0
  | .extcodehash => 0
  | .blockhash => 0
  | .coinbase => 0
  | .timestamp => 0
  | .number => 0
  | .difficulty => 0
  | .gaslimit => 0
  | .pop => 0
  | .mload => 0
  | .mstore => 0
  | .mstore8 => 0
  | .sload => 0
  | .sstore => 0
  | .jump => 0
  | .jumpi => 0
  | .pc => 0
  | .msize => 0
  | .gas => 0
  | .jumpdest => 0
  | .push1 imm => imm
  | .push2 imm => imm
  | .push3 imm => imm
  | .push4 imm => imm
  | .push5 imm => imm
  | .push6 imm => imm
  | .push7 imm => imm
  | .push8 imm => imm
  | .push9 imm => imm
  | .push10 imm => imm
  | .push11 imm => imm
  | .push12 imm => imm
  | .push13 imm => imm
  | .push14 imm => imm
  | .push15 imm => imm
  | .push16 imm => imm
  | .push17 imm => imm
  | .push18 imm => imm
  | .push19 imm => imm
  | .push20 imm => imm
  | .push21 imm => imm
  | .push22 imm => imm
  | .push23 imm => imm
  | .push24 imm => imm
  | .push25 imm => imm
  | .push26 imm => imm
  | .push27 imm => imm
  | .push28 imm => imm
  | .push29 imm => imm
  | .push30 imm => imm
  | .push31 imm => imm
  | .push32 imm => imm
  | .dup1 => 0
  | .dup2 => 0
  | .dup3 => 0
  | .dup4 => 0
  | .dup5 => 0
  | .dup6 => 0
  | .dup7 => 0
  | .dup8 => 0
  | .dup9 => 0
  | .dup10 => 0
  | .dup11 => 0
  | .dup12 => 0
  | .dup13 => 0
  | .dup14 => 0
  | .dup15 => 0
  | .dup16 => 0
  | .swap1 => 0
  | .swap2 => 0
  | .swap3 => 0
  | .swap4 => 0
  | .swap5 => 0
  | .swap6 => 0
  | .swap7 => 0
  | .swap8 => 0
  | .swap9 => 0
  | .swap10 => 0
  | .swap11 => 0
  | .swap12 => 0
  | .swap13 => 0
  | .swap14 => 0
  | .swap15 => 0
  | .swap16 => 0
  | .log0 => 0
  | .log1 => 0
  | .log2 => 0
  | .log3 => 0
  | .log4 => 0
  | .create => 0
  | .call => 0
  | .callcode => 0
  | .return_ => 0
  | .delegatecall => 0
  | .create2 => 0
  | .staticcall => 0
  | .revert => 0
  | .selfdestruct => 0
  | .neg => 0
  | .isneg => 0
  | .rol => 0
  | .ror => 0

/-- Well formed: the immediate fits in its bytes, so it is below `2^(8n)` (R73). -/
def Instr.wf (i : Instr) : Bool :=
  decide (i.imm.toNat < 2 ^ (8 * i.immLen))

end Sys2Proof
end

