-- ==== Sys2Proof/Machine/Table.lean ====
section
/-!
DEFINITION. The instruction table IT: its 139 records (30_encoding.md R76, R83) and its operations
(43_instruction_table.md R150 to R157).
-/

namespace Sys2Proof.Machine

/-- STOP: R173. -/
def infoStop : OpInfo :=
  { value := 0x00, mnemonic := "STOP", pops := 0, pushes := 0, unitClass := .seq }

/-- ADD: R101. -/
def infoAdd : OpInfo :=
  { value := 0x01, mnemonic := "ADD", pops := 2, pushes := 1, unitClass := .alu }

/-- MUL: R102. -/
def infoMul : OpInfo :=
  { value := 0x02, mnemonic := "MUL", pops := 2, pushes := 1, unitClass := .alu }

/-- SUB: R103. -/
def infoSub : OpInfo :=
  { value := 0x03, mnemonic := "SUB", pops := 2, pushes := 1, unitClass := .alu }

/-- DIV: R104. -/
def infoDiv : OpInfo :=
  { value := 0x04, mnemonic := "DIV", pops := 2, pushes := 1, unitClass := .alu }

/-- SDIV: R105. -/
def infoSdiv : OpInfo :=
  { value := 0x05, mnemonic := "SDIV", pops := 2, pushes := 1, unitClass := .alu }

/-- MOD: R106. -/
def infoMod : OpInfo :=
  { value := 0x06, mnemonic := "MOD", pops := 2, pushes := 1, unitClass := .alu }

/-- SMOD: R107. -/
def infoSmod : OpInfo :=
  { value := 0x07, mnemonic := "SMOD", pops := 2, pushes := 1, unitClass := .alu }

/-- ADDMOD: R108. -/
def infoAddmod : OpInfo :=
  { value := 0x08, mnemonic := "ADDMOD", pops := 3, pushes := 1, unitClass := .alu }

/-- MULMOD: R109. -/
def infoMulmod : OpInfo :=
  { value := 0x09, mnemonic := "MULMOD", pops := 3, pushes := 1, unitClass := .alu }

/-- EXP: R110. -/
def infoExp : OpInfo :=
  { value := 0x0a, mnemonic := "EXP", pops := 2, pushes := 1, unitClass := .alu }

/-- SIGNEXTEND: R112. -/
def infoSignextend : OpInfo :=
  { value := 0x0b, mnemonic := "SIGNEXTEND", pops := 2, pushes := 1, unitClass := .alu }

/-- LT: R121. -/
def infoLt : OpInfo :=
  { value := 0x10, mnemonic := "LT", pops := 2, pushes := 1, unitClass := .alu }

/-- GT: R122. -/
def infoGt : OpInfo :=
  { value := 0x11, mnemonic := "GT", pops := 2, pushes := 1, unitClass := .alu }

/-- SLT: R123. -/
def infoSlt : OpInfo :=
  { value := 0x12, mnemonic := "SLT", pops := 2, pushes := 1, unitClass := .alu }

/-- SGT: R124. -/
def infoSgt : OpInfo :=
  { value := 0x13, mnemonic := "SGT", pops := 2, pushes := 1, unitClass := .alu }

/-- EQ: R125. -/
def infoEq : OpInfo :=
  { value := 0x14, mnemonic := "EQ", pops := 2, pushes := 1, unitClass := .alu }

/-- ISZERO: R126. -/
def infoIszero : OpInfo :=
  { value := 0x15, mnemonic := "ISZERO", pops := 1, pushes := 1, unitClass := .alu }

/-- AND: R128. -/
def infoAnd : OpInfo :=
  { value := 0x16, mnemonic := "AND", pops := 2, pushes := 1, unitClass := .alu }

/-- OR: R129. -/
def infoOr : OpInfo :=
  { value := 0x17, mnemonic := "OR", pops := 2, pushes := 1, unitClass := .alu }

/-- XOR: R130. -/
def infoXor : OpInfo :=
  { value := 0x18, mnemonic := "XOR", pops := 2, pushes := 1, unitClass := .alu }

/-- NOT: R131. -/
def infoNot : OpInfo :=
  { value := 0x19, mnemonic := "NOT", pops := 1, pushes := 1, unitClass := .alu }

/-- BYTE: R132. -/
def infoByte : OpInfo :=
  { value := 0x1a, mnemonic := "BYTE", pops := 2, pushes := 1, unitClass := .alu }

/-- SHL: R140. -/
def infoShl : OpInfo :=
  { value := 0x1b, mnemonic := "SHL", pops := 2, pushes := 1, unitClass := .alu }

/-- SHR: R141. -/
def infoShr : OpInfo :=
  { value := 0x1c, mnemonic := "SHR", pops := 2, pushes := 1, unitClass := .alu }

/-- SAR: R142. -/
def infoSar : OpInfo :=
  { value := 0x1d, mnemonic := "SAR", pops := 2, pushes := 1, unitClass := .alu }

/-- SHA3: R212. -/
def infoSha3 : OpInfo :=
  { value := 0x20, mnemonic := "SHA3", pops := 2, pushes := 1, unitClass := .ext }

/-- ADDRESS: R213. -/
def infoAddress : OpInfo :=
  { value := 0x30, mnemonic := "ADDRESS", pops := 0, pushes := 1, unitClass := .ext }

/-- BALANCE: R214. -/
def infoBalance : OpInfo :=
  { value := 0x31, mnemonic := "BALANCE", pops := 1, pushes := 1, unitClass := .ext }

/-- ORIGIN: R215. -/
def infoOrigin : OpInfo :=
  { value := 0x32, mnemonic := "ORIGIN", pops := 0, pushes := 1, unitClass := .ext }

/-- CALLER: R216. -/
def infoCaller : OpInfo :=
  { value := 0x33, mnemonic := "CALLER", pops := 0, pushes := 1, unitClass := .ext }

/-- CALLVALUE: R217. -/
def infoCallvalue : OpInfo :=
  { value := 0x34, mnemonic := "CALLVALUE", pops := 0, pushes := 1, unitClass := .ext }

/-- CALLDATALOAD: R218. -/
def infoCalldataload : OpInfo :=
  { value := 0x35, mnemonic := "CALLDATALOAD", pops := 1, pushes := 1, unitClass := .ext }

/-- CALLDATASIZE: R219. -/
def infoCalldatasize : OpInfo :=
  { value := 0x36, mnemonic := "CALLDATASIZE", pops := 0, pushes := 1, unitClass := .ext }

/-- CALLDATACOPY: R220. -/
def infoCalldatacopy : OpInfo :=
  { value := 0x37, mnemonic := "CALLDATACOPY", pops := 3, pushes := 0, unitClass := .ext }

/-- CODESIZE: R221. -/
def infoCodesize : OpInfo :=
  { value := 0x38, mnemonic := "CODESIZE", pops := 0, pushes := 1, unitClass := .ext }

/-- CODECOPY: R222. -/
def infoCodecopy : OpInfo :=
  { value := 0x39, mnemonic := "CODECOPY", pops := 3, pushes := 0, unitClass := .ext }

/-- GASPRICE: R223. -/
def infoGasprice : OpInfo :=
  { value := 0x3a, mnemonic := "GASPRICE", pops := 0, pushes := 1, unitClass := .ext }

/-- EXTCODESIZE: R224. -/
def infoExtcodesize : OpInfo :=
  { value := 0x3b, mnemonic := "EXTCODESIZE", pops := 1, pushes := 1, unitClass := .ext }

/-- EXTCODECOPY: R225. -/
def infoExtcodecopy : OpInfo :=
  { value := 0x3c, mnemonic := "EXTCODECOPY", pops := 4, pushes := 0, unitClass := .ext }

/-- RETURNDATASIZE: R226. -/
def infoReturndatasize : OpInfo :=
  { value := 0x3d, mnemonic := "RETURNDATASIZE", pops := 0, pushes := 1, unitClass := .ext }

/-- RETURNDATACOPY: R227. -/
def infoReturndatacopy : OpInfo :=
  { value := 0x3e, mnemonic := "RETURNDATACOPY", pops := 3, pushes := 0, unitClass := .ext }

/-- EXTCODEHASH: R228. -/
def infoExtcodehash : OpInfo :=
  { value := 0x3f, mnemonic := "EXTCODEHASH", pops := 1, pushes := 1, unitClass := .ext }

/-- BLOCKHASH: R229. -/
def infoBlockhash : OpInfo :=
  { value := 0x40, mnemonic := "BLOCKHASH", pops := 1, pushes := 1, unitClass := .ext }

/-- COINBASE: R230. -/
def infoCoinbase : OpInfo :=
  { value := 0x41, mnemonic := "COINBASE", pops := 0, pushes := 1, unitClass := .ext }

/-- TIMESTAMP: R231. -/
def infoTimestamp : OpInfo :=
  { value := 0x42, mnemonic := "TIMESTAMP", pops := 0, pushes := 1, unitClass := .ext }

/-- NUMBER: R232. -/
def infoNumber : OpInfo :=
  { value := 0x43, mnemonic := "NUMBER", pops := 0, pushes := 1, unitClass := .ext }

/-- DIFFICULTY: R233. -/
def infoDifficulty : OpInfo :=
  { value := 0x44, mnemonic := "DIFFICULTY", pops := 0, pushes := 1, unitClass := .ext }

/-- GASLIMIT: R234. -/
def infoGaslimit : OpInfo :=
  { value := 0x45, mnemonic := "GASLIMIT", pops := 0, pushes := 1, unitClass := .ext }

/-- POP: R175. -/
def infoPop : OpInfo :=
  { value := 0x50, mnemonic := "POP", pops := 1, pushes := 0, unitClass := .seq }

/-- MLOAD: R200. -/
def infoMload : OpInfo :=
  { value := 0x51, mnemonic := "MLOAD", pops := 1, pushes := 1, unitClass := .seq }

/-- MSTORE: R201. -/
def infoMstore : OpInfo :=
  { value := 0x52, mnemonic := "MSTORE", pops := 2, pushes := 0, unitClass := .seq }

/-- MSTORE8: R202. -/
def infoMstore8 : OpInfo :=
  { value := 0x53, mnemonic := "MSTORE8", pops := 2, pushes := 0, unitClass := .seq }

/-- SLOAD: R235. -/
def infoSload : OpInfo :=
  { value := 0x54, mnemonic := "SLOAD", pops := 1, pushes := 1, unitClass := .ext }

/-- SSTORE: R236. -/
def infoSstore : OpInfo :=
  { value := 0x55, mnemonic := "SSTORE", pops := 2, pushes := 0, unitClass := .ext }

/-- JUMP: R179. -/
def infoJump : OpInfo :=
  { value := 0x56, mnemonic := "JUMP", pops := 1, pushes := 0, unitClass := .seq }

/-- JUMPI: R180. -/
def infoJumpi : OpInfo :=
  { value := 0x57, mnemonic := "JUMPI", pops := 2, pushes := 0, unitClass := .seq }

/-- PC: R181. -/
def infoPc : OpInfo :=
  { value := 0x58, mnemonic := "PC", pops := 0, pushes := 1, unitClass := .seq }

/-- MSIZE: R203. -/
def infoMsize : OpInfo :=
  { value := 0x59, mnemonic := "MSIZE", pops := 0, pushes := 1, unitClass := .seq }

/-- GAS: R237. -/
def infoGas : OpInfo :=
  { value := 0x5a, mnemonic := "GAS", pops := 0, pushes := 1, unitClass := .ext }

/-- JUMPDEST: R182. -/
def infoJumpdest : OpInfo :=
  { value := 0x5b, mnemonic := "JUMPDEST", pops := 0, pushes := 0, unitClass := .seq }

/-- PUSH1: R176. -/
def infoPush1 : OpInfo :=
  { value := 0x60, mnemonic := "PUSH1", pops := 0, pushes := 1, unitClass := .seq, imm := 1 }

/-- PUSH2: R176. -/
def infoPush2 : OpInfo :=
  { value := 0x61, mnemonic := "PUSH2", pops := 0, pushes := 1, unitClass := .seq, imm := 2 }

/-- PUSH3: R176. -/
def infoPush3 : OpInfo :=
  { value := 0x62, mnemonic := "PUSH3", pops := 0, pushes := 1, unitClass := .seq, imm := 3 }

/-- PUSH4: R176. -/
def infoPush4 : OpInfo :=
  { value := 0x63, mnemonic := "PUSH4", pops := 0, pushes := 1, unitClass := .seq, imm := 4 }

/-- PUSH5: R176. -/
def infoPush5 : OpInfo :=
  { value := 0x64, mnemonic := "PUSH5", pops := 0, pushes := 1, unitClass := .seq, imm := 5 }

/-- PUSH6: R176. -/
def infoPush6 : OpInfo :=
  { value := 0x65, mnemonic := "PUSH6", pops := 0, pushes := 1, unitClass := .seq, imm := 6 }

/-- PUSH7: R176. -/
def infoPush7 : OpInfo :=
  { value := 0x66, mnemonic := "PUSH7", pops := 0, pushes := 1, unitClass := .seq, imm := 7 }

/-- PUSH8: R176. -/
def infoPush8 : OpInfo :=
  { value := 0x67, mnemonic := "PUSH8", pops := 0, pushes := 1, unitClass := .seq, imm := 8 }

/-- PUSH9: R176. -/
def infoPush9 : OpInfo :=
  { value := 0x68, mnemonic := "PUSH9", pops := 0, pushes := 1, unitClass := .seq, imm := 9 }

/-- PUSH10: R176. -/
def infoPush10 : OpInfo :=
  { value := 0x69, mnemonic := "PUSH10", pops := 0, pushes := 1, unitClass := .seq, imm := 10 }

/-- PUSH11: R176. -/
def infoPush11 : OpInfo :=
  { value := 0x6a, mnemonic := "PUSH11", pops := 0, pushes := 1, unitClass := .seq, imm := 11 }

/-- PUSH12: R176. -/
def infoPush12 : OpInfo :=
  { value := 0x6b, mnemonic := "PUSH12", pops := 0, pushes := 1, unitClass := .seq, imm := 12 }

/-- PUSH13: R176. -/
def infoPush13 : OpInfo :=
  { value := 0x6c, mnemonic := "PUSH13", pops := 0, pushes := 1, unitClass := .seq, imm := 13 }

/-- PUSH14: R176. -/
def infoPush14 : OpInfo :=
  { value := 0x6d, mnemonic := "PUSH14", pops := 0, pushes := 1, unitClass := .seq, imm := 14 }

/-- PUSH15: R176. -/
def infoPush15 : OpInfo :=
  { value := 0x6e, mnemonic := "PUSH15", pops := 0, pushes := 1, unitClass := .seq, imm := 15 }

/-- PUSH16: R176. -/
def infoPush16 : OpInfo :=
  { value := 0x6f, mnemonic := "PUSH16", pops := 0, pushes := 1, unitClass := .seq, imm := 16 }

/-- PUSH17: R176. -/
def infoPush17 : OpInfo :=
  { value := 0x70, mnemonic := "PUSH17", pops := 0, pushes := 1, unitClass := .seq, imm := 17 }

/-- PUSH18: R176. -/
def infoPush18 : OpInfo :=
  { value := 0x71, mnemonic := "PUSH18", pops := 0, pushes := 1, unitClass := .seq, imm := 18 }

/-- PUSH19: R176. -/
def infoPush19 : OpInfo :=
  { value := 0x72, mnemonic := "PUSH19", pops := 0, pushes := 1, unitClass := .seq, imm := 19 }

/-- PUSH20: R176. -/
def infoPush20 : OpInfo :=
  { value := 0x73, mnemonic := "PUSH20", pops := 0, pushes := 1, unitClass := .seq, imm := 20 }

/-- PUSH21: R176. -/
def infoPush21 : OpInfo :=
  { value := 0x74, mnemonic := "PUSH21", pops := 0, pushes := 1, unitClass := .seq, imm := 21 }

/-- PUSH22: R176. -/
def infoPush22 : OpInfo :=
  { value := 0x75, mnemonic := "PUSH22", pops := 0, pushes := 1, unitClass := .seq, imm := 22 }

/-- PUSH23: R176. -/
def infoPush23 : OpInfo :=
  { value := 0x76, mnemonic := "PUSH23", pops := 0, pushes := 1, unitClass := .seq, imm := 23 }

/-- PUSH24: R176. -/
def infoPush24 : OpInfo :=
  { value := 0x77, mnemonic := "PUSH24", pops := 0, pushes := 1, unitClass := .seq, imm := 24 }

/-- PUSH25: R176. -/
def infoPush25 : OpInfo :=
  { value := 0x78, mnemonic := "PUSH25", pops := 0, pushes := 1, unitClass := .seq, imm := 25 }

/-- PUSH26: R176. -/
def infoPush26 : OpInfo :=
  { value := 0x79, mnemonic := "PUSH26", pops := 0, pushes := 1, unitClass := .seq, imm := 26 }

/-- PUSH27: R176. -/
def infoPush27 : OpInfo :=
  { value := 0x7a, mnemonic := "PUSH27", pops := 0, pushes := 1, unitClass := .seq, imm := 27 }

/-- PUSH28: R176. -/
def infoPush28 : OpInfo :=
  { value := 0x7b, mnemonic := "PUSH28", pops := 0, pushes := 1, unitClass := .seq, imm := 28 }

/-- PUSH29: R176. -/
def infoPush29 : OpInfo :=
  { value := 0x7c, mnemonic := "PUSH29", pops := 0, pushes := 1, unitClass := .seq, imm := 29 }

/-- PUSH30: R176. -/
def infoPush30 : OpInfo :=
  { value := 0x7d, mnemonic := "PUSH30", pops := 0, pushes := 1, unitClass := .seq, imm := 30 }

/-- PUSH31: R176. -/
def infoPush31 : OpInfo :=
  { value := 0x7e, mnemonic := "PUSH31", pops := 0, pushes := 1, unitClass := .seq, imm := 31 }

/-- PUSH32: R176. -/
def infoPush32 : OpInfo :=
  { value := 0x7f, mnemonic := "PUSH32", pops := 0, pushes := 1, unitClass := .seq, imm := 32 }

/-- DUP1: R177. -/
def infoDup1 : OpInfo :=
  { value := 0x80, mnemonic := "DUP1", pops := 1, pushes := 2, unitClass := .seq }

/-- DUP2: R177. -/
def infoDup2 : OpInfo :=
  { value := 0x81, mnemonic := "DUP2", pops := 2, pushes := 3, unitClass := .seq }

/-- DUP3: R177. -/
def infoDup3 : OpInfo :=
  { value := 0x82, mnemonic := "DUP3", pops := 3, pushes := 4, unitClass := .seq }

/-- DUP4: R177. -/
def infoDup4 : OpInfo :=
  { value := 0x83, mnemonic := "DUP4", pops := 4, pushes := 5, unitClass := .seq }

/-- DUP5: R177. -/
def infoDup5 : OpInfo :=
  { value := 0x84, mnemonic := "DUP5", pops := 5, pushes := 6, unitClass := .seq }

/-- DUP6: R177. -/
def infoDup6 : OpInfo :=
  { value := 0x85, mnemonic := "DUP6", pops := 6, pushes := 7, unitClass := .seq }

/-- DUP7: R177. -/
def infoDup7 : OpInfo :=
  { value := 0x86, mnemonic := "DUP7", pops := 7, pushes := 8, unitClass := .seq }

/-- DUP8: R177. -/
def infoDup8 : OpInfo :=
  { value := 0x87, mnemonic := "DUP8", pops := 8, pushes := 9, unitClass := .seq }

/-- DUP9: R177. -/
def infoDup9 : OpInfo :=
  { value := 0x88, mnemonic := "DUP9", pops := 9, pushes := 10, unitClass := .seq }

/-- DUP10: R177. -/
def infoDup10 : OpInfo :=
  { value := 0x89, mnemonic := "DUP10", pops := 10, pushes := 11, unitClass := .seq }

/-- DUP11: R177. -/
def infoDup11 : OpInfo :=
  { value := 0x8a, mnemonic := "DUP11", pops := 11, pushes := 12, unitClass := .seq }

/-- DUP12: R177. -/
def infoDup12 : OpInfo :=
  { value := 0x8b, mnemonic := "DUP12", pops := 12, pushes := 13, unitClass := .seq }

/-- DUP13: R177. -/
def infoDup13 : OpInfo :=
  { value := 0x8c, mnemonic := "DUP13", pops := 13, pushes := 14, unitClass := .seq }

/-- DUP14: R177. -/
def infoDup14 : OpInfo :=
  { value := 0x8d, mnemonic := "DUP14", pops := 14, pushes := 15, unitClass := .seq }

/-- DUP15: R177. -/
def infoDup15 : OpInfo :=
  { value := 0x8e, mnemonic := "DUP15", pops := 15, pushes := 16, unitClass := .seq }

/-- DUP16: R177. -/
def infoDup16 : OpInfo :=
  { value := 0x8f, mnemonic := "DUP16", pops := 16, pushes := 17, unitClass := .seq }

/-- SWAP1: R178. -/
def infoSwap1 : OpInfo :=
  { value := 0x90, mnemonic := "SWAP1", pops := 2, pushes := 2, unitClass := .seq }

/-- SWAP2: R178. -/
def infoSwap2 : OpInfo :=
  { value := 0x91, mnemonic := "SWAP2", pops := 3, pushes := 3, unitClass := .seq }

/-- SWAP3: R178. -/
def infoSwap3 : OpInfo :=
  { value := 0x92, mnemonic := "SWAP3", pops := 4, pushes := 4, unitClass := .seq }

/-- SWAP4: R178. -/
def infoSwap4 : OpInfo :=
  { value := 0x93, mnemonic := "SWAP4", pops := 5, pushes := 5, unitClass := .seq }

/-- SWAP5: R178. -/
def infoSwap5 : OpInfo :=
  { value := 0x94, mnemonic := "SWAP5", pops := 6, pushes := 6, unitClass := .seq }

/-- SWAP6: R178. -/
def infoSwap6 : OpInfo :=
  { value := 0x95, mnemonic := "SWAP6", pops := 7, pushes := 7, unitClass := .seq }

/-- SWAP7: R178. -/
def infoSwap7 : OpInfo :=
  { value := 0x96, mnemonic := "SWAP7", pops := 8, pushes := 8, unitClass := .seq }

/-- SWAP8: R178. -/
def infoSwap8 : OpInfo :=
  { value := 0x97, mnemonic := "SWAP8", pops := 9, pushes := 9, unitClass := .seq }

/-- SWAP9: R178. -/
def infoSwap9 : OpInfo :=
  { value := 0x98, mnemonic := "SWAP9", pops := 10, pushes := 10, unitClass := .seq }

/-- SWAP10: R178. -/
def infoSwap10 : OpInfo :=
  { value := 0x99, mnemonic := "SWAP10", pops := 11, pushes := 11, unitClass := .seq }

/-- SWAP11: R178. -/
def infoSwap11 : OpInfo :=
  { value := 0x9a, mnemonic := "SWAP11", pops := 12, pushes := 12, unitClass := .seq }

/-- SWAP12: R178. -/
def infoSwap12 : OpInfo :=
  { value := 0x9b, mnemonic := "SWAP12", pops := 13, pushes := 13, unitClass := .seq }

/-- SWAP13: R178. -/
def infoSwap13 : OpInfo :=
  { value := 0x9c, mnemonic := "SWAP13", pops := 14, pushes := 14, unitClass := .seq }

/-- SWAP14: R178. -/
def infoSwap14 : OpInfo :=
  { value := 0x9d, mnemonic := "SWAP14", pops := 15, pushes := 15, unitClass := .seq }

/-- SWAP15: R178. -/
def infoSwap15 : OpInfo :=
  { value := 0x9e, mnemonic := "SWAP15", pops := 16, pushes := 16, unitClass := .seq }

/-- SWAP16: R178. -/
def infoSwap16 : OpInfo :=
  { value := 0x9f, mnemonic := "SWAP16", pops := 17, pushes := 17, unitClass := .seq }

/-- LOG0: R238. -/
def infoLog0 : OpInfo :=
  { value := 0xa0, mnemonic := "LOG0", pops := 2, pushes := 0, unitClass := .ext }

/-- LOG1: R238. -/
def infoLog1 : OpInfo :=
  { value := 0xa1, mnemonic := "LOG1", pops := 3, pushes := 0, unitClass := .ext }

/-- LOG2: R238. -/
def infoLog2 : OpInfo :=
  { value := 0xa2, mnemonic := "LOG2", pops := 4, pushes := 0, unitClass := .ext }

/-- LOG3: R238. -/
def infoLog3 : OpInfo :=
  { value := 0xa3, mnemonic := "LOG3", pops := 5, pushes := 0, unitClass := .ext }

/-- LOG4: R238. -/
def infoLog4 : OpInfo :=
  { value := 0xa4, mnemonic := "LOG4", pops := 6, pushes := 0, unitClass := .ext }

/-- CREATE: R239. -/
def infoCreate : OpInfo :=
  { value := 0xf0, mnemonic := "CREATE", pops := 3, pushes := 1, unitClass := .ext }

/-- CALL: R240. -/
def infoCall : OpInfo :=
  { value := 0xf1, mnemonic := "CALL", pops := 7, pushes := 1, unitClass := .ext, isCall := true, hasValue := true }

/-- CALLCODE: R241. -/
def infoCallcode : OpInfo :=
  { value := 0xf2, mnemonic := "CALLCODE", pops := 7, pushes := 1, unitClass := .ext, isCall := true, stateless := true, hasValue := true }

/-- RETURN: R183. -/
def infoReturn : OpInfo :=
  { value := 0xf3, mnemonic := "RETURN", pops := 2, pushes := 0, unitClass := .seq }

/-- DELEGATECALL: R242. -/
def infoDelegatecall : OpInfo :=
  { value := 0xf4, mnemonic := "DELEGATECALL", pops := 6, pushes := 1, unitClass := .ext, isCall := true, stateless := true, delegate := true }

/-- CREATE2: R243. -/
def infoCreate2 : OpInfo :=
  { value := 0xf5, mnemonic := "CREATE2", pops := 4, pushes := 1, unitClass := .ext }

/-- STATICCALL: R244. -/
def infoStaticcall : OpInfo :=
  { value := 0xfa, mnemonic := "STATICCALL", pops := 6, pushes := 1, unitClass := .ext, isCall := true, static := true }

/-- REVERT: R184. -/
def infoRevert : OpInfo :=
  { value := 0xfd, mnemonic := "REVERT", pops := 2, pushes := 0, unitClass := .seq }

/-- SELFDESTRUCT: R245. -/
def infoSelfdestruct : OpInfo :=
  { value := 0xff, mnemonic := "SELFDESTRUCT", pops := 1, pushes := 0, unitClass := .ext }

/-- A row of the opcode map: the record, and the instruction the opcode makes of its immediate. -/
structure OpRow where
  info : OpInfo
  build : Word → Instr

/-- R76: the 25 opcodes of class ALU. -/
def aluRows : List OpRow :=
  [ ⟨infoAdd, fun _ => .add⟩
  , ⟨infoMul, fun _ => .mul⟩
  , ⟨infoSub, fun _ => .sub⟩
  , ⟨infoDiv, fun _ => .div⟩
  , ⟨infoSdiv, fun _ => .sdiv⟩
  , ⟨infoMod, fun _ => .mod⟩
  , ⟨infoSmod, fun _ => .smod⟩
  , ⟨infoAddmod, fun _ => .addmod⟩
  , ⟨infoMulmod, fun _ => .mulmod⟩
  , ⟨infoExp, fun _ => .exp⟩
  , ⟨infoSignextend, fun _ => .signextend⟩
  , ⟨infoLt, fun _ => .lt⟩
  , ⟨infoGt, fun _ => .gt⟩
  , ⟨infoSlt, fun _ => .slt⟩
  , ⟨infoSgt, fun _ => .sgt⟩
  , ⟨infoEq, fun _ => .eq⟩
  , ⟨infoIszero, fun _ => .iszero⟩
  , ⟨infoAnd, fun _ => .and⟩
  , ⟨infoOr, fun _ => .or⟩
  , ⟨infoXor, fun _ => .xor⟩
  , ⟨infoNot, fun _ => .not⟩
  , ⟨infoByte, fun _ => .byte⟩
  , ⟨infoShl, fun _ => .shl⟩
  , ⟨infoShr, fun _ => .shr⟩
  , ⟨infoSar, fun _ => .sar⟩ ]

/-- R76: the opcodes of class SEQ other than PUSHn, DUPn and SWAPn. -/
def seqRows : List OpRow :=
  [ ⟨infoStop, fun _ => .stop⟩
  , ⟨infoPop, fun _ => .pop⟩
  , ⟨infoMload, fun _ => .mload⟩
  , ⟨infoMstore, fun _ => .mstore⟩
  , ⟨infoMstore8, fun _ => .mstore8⟩
  , ⟨infoJump, fun _ => .jump⟩
  , ⟨infoJumpi, fun _ => .jumpi⟩
  , ⟨infoPc, fun _ => .pc⟩
  , ⟨infoMsize, fun _ => .msize⟩
  , ⟨infoJumpdest, fun _ => .jumpdest⟩
  , ⟨infoReturn, fun _ => .return_⟩
  , ⟨infoRevert, fun _ => .revert⟩ ]

/-- R76: PUSH1 to PUSH32. -/
def pushRows : List OpRow :=
  [ ⟨infoPush1, .push1⟩
  , ⟨infoPush2, .push2⟩
  , ⟨infoPush3, .push3⟩
  , ⟨infoPush4, .push4⟩
  , ⟨infoPush5, .push5⟩
  , ⟨infoPush6, .push6⟩
  , ⟨infoPush7, .push7⟩
  , ⟨infoPush8, .push8⟩
  , ⟨infoPush9, .push9⟩
  , ⟨infoPush10, .push10⟩
  , ⟨infoPush11, .push11⟩
  , ⟨infoPush12, .push12⟩
  , ⟨infoPush13, .push13⟩
  , ⟨infoPush14, .push14⟩
  , ⟨infoPush15, .push15⟩
  , ⟨infoPush16, .push16⟩
  , ⟨infoPush17, .push17⟩
  , ⟨infoPush18, .push18⟩
  , ⟨infoPush19, .push19⟩
  , ⟨infoPush20, .push20⟩
  , ⟨infoPush21, .push21⟩
  , ⟨infoPush22, .push22⟩
  , ⟨infoPush23, .push23⟩
  , ⟨infoPush24, .push24⟩
  , ⟨infoPush25, .push25⟩
  , ⟨infoPush26, .push26⟩
  , ⟨infoPush27, .push27⟩
  , ⟨infoPush28, .push28⟩
  , ⟨infoPush29, .push29⟩
  , ⟨infoPush30, .push30⟩
  , ⟨infoPush31, .push31⟩
  , ⟨infoPush32, .push32⟩ ]

/-- R76: DUP1 to DUP16. -/
def dupRows : List OpRow :=
  [ ⟨infoDup1, fun _ => .dup1⟩
  , ⟨infoDup2, fun _ => .dup2⟩
  , ⟨infoDup3, fun _ => .dup3⟩
  , ⟨infoDup4, fun _ => .dup4⟩
  , ⟨infoDup5, fun _ => .dup5⟩
  , ⟨infoDup6, fun _ => .dup6⟩
  , ⟨infoDup7, fun _ => .dup7⟩
  , ⟨infoDup8, fun _ => .dup8⟩
  , ⟨infoDup9, fun _ => .dup9⟩
  , ⟨infoDup10, fun _ => .dup10⟩
  , ⟨infoDup11, fun _ => .dup11⟩
  , ⟨infoDup12, fun _ => .dup12⟩
  , ⟨infoDup13, fun _ => .dup13⟩
  , ⟨infoDup14, fun _ => .dup14⟩
  , ⟨infoDup15, fun _ => .dup15⟩
  , ⟨infoDup16, fun _ => .dup16⟩ ]

/-- R76: SWAP1 to SWAP16. -/
def swapRows : List OpRow :=
  [ ⟨infoSwap1, fun _ => .swap1⟩
  , ⟨infoSwap2, fun _ => .swap2⟩
  , ⟨infoSwap3, fun _ => .swap3⟩
  , ⟨infoSwap4, fun _ => .swap4⟩
  , ⟨infoSwap5, fun _ => .swap5⟩
  , ⟨infoSwap6, fun _ => .swap6⟩
  , ⟨infoSwap7, fun _ => .swap7⟩
  , ⟨infoSwap8, fun _ => .swap8⟩
  , ⟨infoSwap9, fun _ => .swap9⟩
  , ⟨infoSwap10, fun _ => .swap10⟩
  , ⟨infoSwap11, fun _ => .swap11⟩
  , ⟨infoSwap12, fun _ => .swap12⟩
  , ⟨infoSwap13, fun _ => .swap13⟩
  , ⟨infoSwap14, fun _ => .swap14⟩
  , ⟨infoSwap15, fun _ => .swap15⟩
  , ⟨infoSwap16, fun _ => .swap16⟩ ]

/-- R76: the 38 opcodes of class EXT. -/
def extRows : List OpRow :=
  [ ⟨infoSha3, fun _ => .sha3⟩
  , ⟨infoAddress, fun _ => .address⟩
  , ⟨infoBalance, fun _ => .balance⟩
  , ⟨infoOrigin, fun _ => .origin⟩
  , ⟨infoCaller, fun _ => .caller⟩
  , ⟨infoCallvalue, fun _ => .callvalue⟩
  , ⟨infoCalldataload, fun _ => .calldataload⟩
  , ⟨infoCalldatasize, fun _ => .calldatasize⟩
  , ⟨infoCalldatacopy, fun _ => .calldatacopy⟩
  , ⟨infoCodesize, fun _ => .codesize⟩
  , ⟨infoCodecopy, fun _ => .codecopy⟩
  , ⟨infoGasprice, fun _ => .gasprice⟩
  , ⟨infoExtcodesize, fun _ => .extcodesize⟩
  , ⟨infoExtcodecopy, fun _ => .extcodecopy⟩
  , ⟨infoReturndatasize, fun _ => .returndatasize⟩
  , ⟨infoReturndatacopy, fun _ => .returndatacopy⟩
  , ⟨infoExtcodehash, fun _ => .extcodehash⟩
  , ⟨infoBlockhash, fun _ => .blockhash⟩
  , ⟨infoCoinbase, fun _ => .coinbase⟩
  , ⟨infoTimestamp, fun _ => .timestamp⟩
  , ⟨infoNumber, fun _ => .number⟩
  , ⟨infoDifficulty, fun _ => .difficulty⟩
  , ⟨infoGaslimit, fun _ => .gaslimit⟩
  , ⟨infoSload, fun _ => .sload⟩
  , ⟨infoSstore, fun _ => .sstore⟩
  , ⟨infoGas, fun _ => .gas⟩
  , ⟨infoLog0, fun _ => .log0⟩
  , ⟨infoLog1, fun _ => .log1⟩
  , ⟨infoLog2, fun _ => .log2⟩
  , ⟨infoLog3, fun _ => .log3⟩
  , ⟨infoLog4, fun _ => .log4⟩
  , ⟨infoCreate, fun _ => .create⟩
  , ⟨infoCall, fun _ => .call⟩
  , ⟨infoCallcode, fun _ => .callcode⟩
  , ⟨infoDelegatecall, fun _ => .delegatecall⟩
  , ⟨infoCreate2, fun _ => .create2⟩
  , ⟨infoStaticcall, fun _ => .staticcall⟩
  , ⟨infoSelfdestruct, fun _ => .selfdestruct⟩ ]

/-- The whole opcode map (R76). -/
def opcodeMap : List OpRow :=
  aluRows ++ (seqRows ++ (pushRows ++ (dupRows ++ (swapRows ++ extRows))))

/-- The row of a byte value, if the value is assigned. -/
def findRow (v : Byte) : Option OpRow :=
  opcodeMap.find? fun r => decide (r.info.value = v)

/-- `lookup_by_value` (R150): the record of an assigned byte value, none for the others (R77). -/
def lookupByValue (v : Byte) : Option OpInfo :=
  (findRow v).map OpRow.info

/-- Removes leading characters that R151 counts as ASCII white space. -/
def trimStart : List Char → List Char
  | [] => []
  | c :: cs => if Config.nameWhitespace.contains c then trimStart cs else c :: cs

/-- Removes leading and trailing ASCII white space (R151). -/
def trimName (t : List Char) : List Char :=
  (trimStart (trimStart t).reverse).reverse

/-- `lookup_by_name` (R151): is the text, trimmed, exactly a mnemonic? A character that is not ASCII, anywhere in
the text, makes it false. -/
def lookupByName (t : String) : Bool :=
  t.toList.all (fun c => decide (c.toNat ≤ 0x7f)) &&
    opcodeMap.any (fun r => r.info.mnemonic.toList == trimName t.toList)

/-- `isCall` (R152): defined on every record. -/
def isCall (e : OpInfo) : Bool := e.isCall

/-- The outcome of a call predicate: a Boolean, or the failure of its precondition (R153), which is none of the
nine error kinds and halts no run. -/
inductive CallAnswer where
  | answer (b : Bool)
  | preconditionFailure
  deriving DecidableEq, Repr

/-- The precondition of the four call predicates (R153). -/
def callPredicate (flag : OpInfo → Bool) (e : OpInfo) : CallAnswer :=
  if isCall e then .answer (flag e) else .preconditionFailure

/-- `callIsStateless` (R154). -/
def callIsStateless (e : OpInfo) : CallAnswer := callPredicate OpInfo.stateless e

/-- `callHasValue` (R155). -/
def callHasValue (e : OpInfo) : CallAnswer := callPredicate OpInfo.hasValue e

/-- `callIsStatic` (R156). -/
def callIsStatic (e : OpInfo) : CallAnswer := callPredicate OpInfo.static e

/-- `callIsDelegate` (R157). -/
def callIsDelegate (e : OpInfo) : CallAnswer := callPredicate OpInfo.delegate e

end Sys2Proof.Machine
end

