-- ==== Sys2Proof/Decode.lean ====
section
/-!
DEFINITION. The decoder and the encoder (30_encoding.md R70 to R73, R77, R84), the select decoder of the ALU port
(R82), and the decoder on a word of the opcode table.
-/

namespace Sys2Proof

open Sys2Proof.Machine

/-- What the decoder answers: an instruction, or the refusal of an unassigned byte value by its name (R77). -/
inductive Decoded where
  | instr (i : Instr)
  | unassigned (v : Byte)
  deriving DecidableEq, Repr

/-- Decodes the bytes of the code from the program counter on. Bytes past the end read as 0x00 (R52), so an empty
list is the implicit STOP (R174) and a cut immediate is filled with zeros (R73). -/
def decode (bytes : List Byte) : Decoded :=
  match findRow (bytes.headD 0) with
  | none => .unassigned (bytes.headD 0)
  | some r => .instr (r.build (packBytes (takePadded r.info.imm bytes.tail)))

/-- The select decoder of the ALU port for the functions that have no opcode (R82). -/
def decodeSelect (fn : Byte) : Option Instr :=
  if fn = 0xc0 then some .neg
  else if fn = 0xc1 then some .isneg
  else if fn = 0xc2 then some .rol
  else if fn = 0xc3 then some .ror
  else none

/-- The byte of an instruction in the opcode table: the opcode (R76), or the function select (R82) for the four
functions of the ALU port. -/
def Instr.opcode : Instr → Byte
  | .stop => 0x00
  | .add => 0x01
  | .mul => 0x02
  | .sub => 0x03
  | .div => 0x04
  | .sdiv => 0x05
  | .mod => 0x06
  | .smod => 0x07
  | .addmod => 0x08
  | .mulmod => 0x09
  | .exp => 0x0a
  | .signextend => 0x0b
  | .lt => 0x10
  | .gt => 0x11
  | .slt => 0x12
  | .sgt => 0x13
  | .eq => 0x14
  | .iszero => 0x15
  | .and => 0x16
  | .or => 0x17
  | .xor => 0x18
  | .not => 0x19
  | .byte => 0x1a
  | .shl => 0x1b
  | .shr => 0x1c
  | .sar => 0x1d
  | .sha3 => 0x20
  | .address => 0x30
  | .balance => 0x31
  | .origin => 0x32
  | .caller => 0x33
  | .callvalue => 0x34
  | .calldataload => 0x35
  | .calldatasize => 0x36
  | .calldatacopy => 0x37
  | .codesize => 0x38
  | .codecopy => 0x39
  | .gasprice => 0x3a
  | .extcodesize => 0x3b
  | .extcodecopy => 0x3c
  | .returndatasize => 0x3d
  | .returndatacopy => 0x3e
  | .extcodehash => 0x3f
  | .blockhash => 0x40
  | .coinbase => 0x41
  | .timestamp => 0x42
  | .number => 0x43
  | .difficulty => 0x44
  | .gaslimit => 0x45
  | .pop => 0x50
  | .mload => 0x51
  | .mstore => 0x52
  | .mstore8 => 0x53
  | .sload => 0x54
  | .sstore => 0x55
  | .jump => 0x56
  | .jumpi => 0x57
  | .pc => 0x58
  | .msize => 0x59
  | .gas => 0x5a
  | .jumpdest => 0x5b
  | .push1 _ => 0x60
  | .push2 _ => 0x61
  | .push3 _ => 0x62
  | .push4 _ => 0x63
  | .push5 _ => 0x64
  | .push6 _ => 0x65
  | .push7 _ => 0x66
  | .push8 _ => 0x67
  | .push9 _ => 0x68
  | .push10 _ => 0x69
  | .push11 _ => 0x6a
  | .push12 _ => 0x6b
  | .push13 _ => 0x6c
  | .push14 _ => 0x6d
  | .push15 _ => 0x6e
  | .push16 _ => 0x6f
  | .push17 _ => 0x70
  | .push18 _ => 0x71
  | .push19 _ => 0x72
  | .push20 _ => 0x73
  | .push21 _ => 0x74
  | .push22 _ => 0x75
  | .push23 _ => 0x76
  | .push24 _ => 0x77
  | .push25 _ => 0x78
  | .push26 _ => 0x79
  | .push27 _ => 0x7a
  | .push28 _ => 0x7b
  | .push29 _ => 0x7c
  | .push30 _ => 0x7d
  | .push31 _ => 0x7e
  | .push32 _ => 0x7f
  | .dup1 => 0x80
  | .dup2 => 0x81
  | .dup3 => 0x82
  | .dup4 => 0x83
  | .dup5 => 0x84
  | .dup6 => 0x85
  | .dup7 => 0x86
  | .dup8 => 0x87
  | .dup9 => 0x88
  | .dup10 => 0x89
  | .dup11 => 0x8a
  | .dup12 => 0x8b
  | .dup13 => 0x8c
  | .dup14 => 0x8d
  | .dup15 => 0x8e
  | .dup16 => 0x8f
  | .swap1 => 0x90
  | .swap2 => 0x91
  | .swap3 => 0x92
  | .swap4 => 0x93
  | .swap5 => 0x94
  | .swap6 => 0x95
  | .swap7 => 0x96
  | .swap8 => 0x97
  | .swap9 => 0x98
  | .swap10 => 0x99
  | .swap11 => 0x9a
  | .swap12 => 0x9b
  | .swap13 => 0x9c
  | .swap14 => 0x9d
  | .swap15 => 0x9e
  | .swap16 => 0x9f
  | .log0 => 0xa0
  | .log1 => 0xa1
  | .log2 => 0xa2
  | .log3 => 0xa3
  | .log4 => 0xa4
  | .create => 0xf0
  | .call => 0xf1
  | .callcode => 0xf2
  | .return_ => 0xf3
  | .delegatecall => 0xf4
  | .create2 => 0xf5
  | .staticcall => 0xfa
  | .revert => 0xfd
  | .selfdestruct => 0xff
  | .neg => 0xc0
  | .isneg => 0xc1
  | .rol => 0xc2
  | .ror => 0xc3

/-- The record of an instruction; none for the four functions of the ALU port, which have no opcode (R82). -/
def Instr.info : Instr → Option OpInfo
  | .stop => some infoStop
  | .add => some infoAdd
  | .mul => some infoMul
  | .sub => some infoSub
  | .div => some infoDiv
  | .sdiv => some infoSdiv
  | .mod => some infoMod
  | .smod => some infoSmod
  | .addmod => some infoAddmod
  | .mulmod => some infoMulmod
  | .exp => some infoExp
  | .signextend => some infoSignextend
  | .lt => some infoLt
  | .gt => some infoGt
  | .slt => some infoSlt
  | .sgt => some infoSgt
  | .eq => some infoEq
  | .iszero => some infoIszero
  | .and => some infoAnd
  | .or => some infoOr
  | .xor => some infoXor
  | .not => some infoNot
  | .byte => some infoByte
  | .shl => some infoShl
  | .shr => some infoShr
  | .sar => some infoSar
  | .sha3 => some infoSha3
  | .address => some infoAddress
  | .balance => some infoBalance
  | .origin => some infoOrigin
  | .caller => some infoCaller
  | .callvalue => some infoCallvalue
  | .calldataload => some infoCalldataload
  | .calldatasize => some infoCalldatasize
  | .calldatacopy => some infoCalldatacopy
  | .codesize => some infoCodesize
  | .codecopy => some infoCodecopy
  | .gasprice => some infoGasprice
  | .extcodesize => some infoExtcodesize
  | .extcodecopy => some infoExtcodecopy
  | .returndatasize => some infoReturndatasize
  | .returndatacopy => some infoReturndatacopy
  | .extcodehash => some infoExtcodehash
  | .blockhash => some infoBlockhash
  | .coinbase => some infoCoinbase
  | .timestamp => some infoTimestamp
  | .number => some infoNumber
  | .difficulty => some infoDifficulty
  | .gaslimit => some infoGaslimit
  | .pop => some infoPop
  | .mload => some infoMload
  | .mstore => some infoMstore
  | .mstore8 => some infoMstore8
  | .sload => some infoSload
  | .sstore => some infoSstore
  | .jump => some infoJump
  | .jumpi => some infoJumpi
  | .pc => some infoPc
  | .msize => some infoMsize
  | .gas => some infoGas
  | .jumpdest => some infoJumpdest
  | .push1 _ => some infoPush1
  | .push2 _ => some infoPush2
  | .push3 _ => some infoPush3
  | .push4 _ => some infoPush4
  | .push5 _ => some infoPush5
  | .push6 _ => some infoPush6
  | .push7 _ => some infoPush7
  | .push8 _ => some infoPush8
  | .push9 _ => some infoPush9
  | .push10 _ => some infoPush10
  | .push11 _ => some infoPush11
  | .push12 _ => some infoPush12
  | .push13 _ => some infoPush13
  | .push14 _ => some infoPush14
  | .push15 _ => some infoPush15
  | .push16 _ => some infoPush16
  | .push17 _ => some infoPush17
  | .push18 _ => some infoPush18
  | .push19 _ => some infoPush19
  | .push20 _ => some infoPush20
  | .push21 _ => some infoPush21
  | .push22 _ => some infoPush22
  | .push23 _ => some infoPush23
  | .push24 _ => some infoPush24
  | .push25 _ => some infoPush25
  | .push26 _ => some infoPush26
  | .push27 _ => some infoPush27
  | .push28 _ => some infoPush28
  | .push29 _ => some infoPush29
  | .push30 _ => some infoPush30
  | .push31 _ => some infoPush31
  | .push32 _ => some infoPush32
  | .dup1 => some infoDup1
  | .dup2 => some infoDup2
  | .dup3 => some infoDup3
  | .dup4 => some infoDup4
  | .dup5 => some infoDup5
  | .dup6 => some infoDup6
  | .dup7 => some infoDup7
  | .dup8 => some infoDup8
  | .dup9 => some infoDup9
  | .dup10 => some infoDup10
  | .dup11 => some infoDup11
  | .dup12 => some infoDup12
  | .dup13 => some infoDup13
  | .dup14 => some infoDup14
  | .dup15 => some infoDup15
  | .dup16 => some infoDup16
  | .swap1 => some infoSwap1
  | .swap2 => some infoSwap2
  | .swap3 => some infoSwap3
  | .swap4 => some infoSwap4
  | .swap5 => some infoSwap5
  | .swap6 => some infoSwap6
  | .swap7 => some infoSwap7
  | .swap8 => some infoSwap8
  | .swap9 => some infoSwap9
  | .swap10 => some infoSwap10
  | .swap11 => some infoSwap11
  | .swap12 => some infoSwap12
  | .swap13 => some infoSwap13
  | .swap14 => some infoSwap14
  | .swap15 => some infoSwap15
  | .swap16 => some infoSwap16
  | .log0 => some infoLog0
  | .log1 => some infoLog1
  | .log2 => some infoLog2
  | .log3 => some infoLog3
  | .log4 => some infoLog4
  | .create => some infoCreate
  | .call => some infoCall
  | .callcode => some infoCallcode
  | .return_ => some infoReturn
  | .delegatecall => some infoDelegatecall
  | .create2 => some infoCreate2
  | .staticcall => some infoStaticcall
  | .revert => some infoRevert
  | .selfdestruct => some infoSelfdestruct
  | .neg => none
  | .isneg => none
  | .rol => none
  | .ror => none

/-- The length of an instruction in bytes (R70, R84). -/
def Instr.length (i : Instr) : Nat := 1 + i.immLen

/-- The bytes of an instruction: the opcode byte, then the immediate, most significant byte first (R70, R72). -/
def encode (i : Instr) : List Byte :=
  i.opcode :: wordBytesBE i.immLen i.imm

/-- The instruction of a row of the opcode table whose bits are `w`, `nbits` of them, byte `k` of the instruction
being bits `8k+7 .. 8k`. The rows of format ALU_PORT_ONLY are function selects, not opcodes (R82), so a byte
that is no opcode is given to the select decoder of the port. DESIGN CHOICE, log 10. -/
def decodeTableWord (nbits w : Nat) : Option Instr :=
  match decode (tableBytes nbits w) with
  | .instr i => some i
  | .unassigned v => if nbits = 8 then decodeSelect v else none

end Sys2Proof
end

