-- ==== Sys2Proof/Machine/State.lean ====
section
/-!
DEFINITION. The state of W256XU (10_state.md R24), its configuration (00_scope.md R7), the host's inputs (R23, R33,
46_external_opcodes.md R210), the reasons a step can stop, and the state after reset (70_reset_and_hazards.md R341).
-/

namespace Sys2Proof.Machine

/-- The halt register (10_state.md R29). -/
inductive Halt where
  | running
  | normal
  | revert
  | exception (kind : ErrorKind)
  deriving DecidableEq, Repr

/-- One trace event (R36): the offset of the opcode byte just executed, that byte, and the whole stack after the
step, top first. -/
structure TraceEvent where
  pc : Nat
  opcode : Byte
  stack : List Word
  deriving DecidableEq, Repr

/-- `SIGNEXTEND_OOR` (R7): what the SIGNEXTEND opcode does when its index is above 31. -/
inductive SignextendOor where
  | passthrough
  | fault
  deriving DecidableEq, Repr

/-- What the host loads at launch (R342): `CODE` (its length is `CODE_LEN`), `ACTIVE`, and the two options of the
register `OPTS`. -/
structure LaunchConfig where
  code : List Byte
  active : BitVec 256
  signextendOor : SignextendOor
  jumpdestRequired : Bool
  deriving DecidableEq, Repr

/-- A request at the ALU port: a function select (R82, R114), or bytes for the word constructor (R100). -/
inductive PortRequest where
  | select (fn : Byte)
  | load (bytes : List Byte)
  deriving DecidableEq, Repr

/-- An answer of the ALU port: a result word or an error kind, never both (R114, U5). -/
inductive PortAnswer where
  | result (r : Word)
  | error (kind : ErrorKind)
  deriving DecidableEq, Repr

/-- One write of the host at its port (R38): a register by its number, an entry `x[i]` of the stack, a byte of the data
memory, a byte of the code memory, or the trace event that the host appends at a handoff (R210). -/
inductive HostWrite where
  | reg (n v : Nat)
  | stack (i : Nat) (w : Word)
  | mem (a : Nat) (b : Byte)
  | code (i : Nat) (b : Byte)
  | event (ev : TraceEvent)
  deriving DecidableEq, Repr

/-- What the host does at a handoff (R210). `complete` pushes the words of `pushed` (top first) in place of the
operands, reads or writes within the ranges of `touched` (offset, length), and writes the bytes of `written`;
`halt` halts the run; `writes` does either by the writes at its port that make it up, in their order (R38). -/
inductive HostAction where
  | complete (pushed : List Word) (touched : List (Nat × Nat)) (written : List Host.Cell)
  | halt (outcome : Halt)
  | writes (ws : List HostWrite)
  deriving DecidableEq, Repr

/-- A reset given by the host (R340): with what it loaded before it (R342), a whole configuration, or writes at its port
(R38, access `CFG`), or both, and what the meter answers in the run that follows. -/
structure ResetRequest where
  load : Option LaunchConfig
  writes : List HostWrite
  meter : Option Nat
  deriving DecidableEq, Repr

/-- The host's inputs, and the ALU port's answer to it. The MODEL's own record, no state of the block (log 5 to
log 10). `meter` is what the meter answers in this run (R33): `none` answers `ok` to every query, `some n` answers
`ok` to the next `n` queries and then `exhausted`. -/
structure HostSide where
  meter : Option Nat
  actions : List HostAction
  reset : Option ResetRequest
  request : Option PortRequest
  a : Word
  b : Word
  c : Word
  answer : Option PortAnswer
  deriving DecidableEq, Repr

/-- The data memory as address and byte pairs, in one canonical form (see `Memory.wf`). -/
abbrev Memory := List Host.Cell

/-- What an offset that is not listed reads as: 0x00 (R28, R341). -/
def Memory.unlisted : Byte := 0

/-- The machine: the state of R24 (`sp` is the length of the stack, `RETLEN` that of `ret`), the configuration, and the
host's inputs. -/
structure State where
  pc : Nat
  stack : List Word
  mem : Memory
  msize : Nat
  halt : Halt
  ret : List Byte
  ext : Bool
  trace : List TraceEvent
  cfg : LaunchConfig
  stackLimit : Nat
  memLimit : Nat
  host : HostSide
  deriving DecidableEq, Repr

/-- Why the machine has no next state. -/
inductive Fault where
  /-- Raised by `step` when `halt` is not `Running` and the host gives no reset: "once halted the interpreter performs no
  further steps" (R324). Safe: the block has no step there. -/
  | halted
  deriving DecidableEq, Repr

/-- What the model refuses. -/
inductive Refusal where
  /-- Answered by `exec` for an instruction that has no meaning in the model. Safe. -/
  | notModelled (mnemonic : String)
  /-- Answered by `step` when `ext = 1` and the host's action is not given: the outcome "handed off at `pc` with opcode
  `v`" of R211. Safe: the block has no step there (R20). -/
  | handedOff (pc : Nat) (opcode : Byte)
  /-- Answered by `step` when the host's action at a handoff is none that R210 allows (U4). Safe: no rule says what
  follows. -/
  | hostProtocol
  /-- Answered by `step` when the host resets with a configuration outside its legal range (U8, R342). Safe: no rule
  says what follows. -/
  | badConfiguration
  deriving DecidableEq, Repr

/-- The configuration at `State.reset`: the spec gives none (R341). No code, every opcode active, and the default
options of R342. DESIGN CHOICE, log 3. -/
def LaunchConfig.atReset : LaunchConfig :=
  { code := [], active := BitVec.allOnes 256, signextendOor := .passthrough, jumpdestRequired := true }

/-- The host's inputs at `State.reset`: nothing asked, nothing pending, a meter that answers `ok`. DESIGN CHOICE,
log 5, log 7, log 9, log 10. -/
def HostSide.atReset : HostSide :=
  { meter := none, actions := [], reset := none, request := none, a := 0, b := 0, c := 0, answer := none }

/-- The machine right after reset (R341). -/
def State.reset : State :=
  { pc := 0, stack := [], mem := [], msize := 0, halt := .running, ret := [], ext := false, trace := [],
    cfg := LaunchConfig.atReset, stackLimit := Config.defaultStackLimit, memLimit := Config.resetMemLimit,
    host := HostSide.atReset }

end Sys2Proof.Machine
end

