-- ==== Sys2Proof/Machine/Flags.lean ====
section
/-!
DEFINITION. Truth values and codes. The block has no condition flags (10_state.md R37); what stands for them is the
Boolean word (41_alu_compare_bitwise.md R120), the halt register's encoding (10_state.md R39) and the codes of the error
kinds (60_exceptions.md R300).
-/

namespace Sys2Proof.Machine

/-- A Boolean result is the word 1 or the word 0 (R120). -/
def boolWord (b : Bool) : Word := if b then 1 else 0

/-- The test of a word for truth: every nonzero word is true (R120, R180). -/
def wordTrue (w : Word) : Bool := decide (w ≠ 0)

/-- The code of an error kind (R300). -/
def ErrorKind.code : ErrorKind → Nat
  | .overflow => 1
  | .rangeError => 2
  | .illegalOperation => 3
  | .invalidInstruction => 4
  | .stackUnderflow => 5
  | .stackOverflow => 6
  | .invalidJump => 7
  | .outOfResource => 8
  | .callDepthExceeded => 9

/-- The error kind of a code (R300). -/
def ErrorKind.ofCode : Nat → Option ErrorKind
  | 1 => some .overflow
  | 2 => some .rangeError
  | 3 => some .illegalOperation
  | 4 => some .invalidInstruction
  | 5 => some .stackUnderflow
  | 6 => some .stackOverflow
  | 7 => some .invalidJump
  | 8 => some .outOfResource
  | 9 => some .callDepthExceeded
  | _ => none

/-- The field `state` of `HALT`, bits 1:0 (R39). -/
def Halt.stateField : Halt → Nat
  | .running => 0
  | .normal => 1
  | .revert => 2
  | .exception _ => 3

/-- The field `kind` of `HALT`, bits 7:4: the code when the state is 3, else 0 (R39). -/
def Halt.kindField : Halt → Nat
  | .exception k => ErrorKind.code k
  | _ => 0

/-- The register `HALT` (R39): `kind` in bits 7:4, bit 3 reads 0, `ext` in bit 2, `state` in bits 1:0. -/
def State.haltRegister (s : State) : BitVec 8 :=
  BitVec.ofNat 4 s.halt.kindField ++ (0 : BitVec 1) ++ BitVec.ofBool s.ext ++ BitVec.ofNat 2 s.halt.stateField

/-- The value of `halt` that the fields `state` and `kind` of `HALT` encode; none for an illegal combination (R39). -/
def Halt.ofFields (state kind : Nat) : Option Halt :=
  match state with
  | 0 => if kind = 0 then some .running else none
  | 1 => if kind = 0 then some .normal else none
  | 2 => if kind = 0 then some .revert else none
  | _ => (ErrorKind.ofCode kind).map Halt.exception

/-- `halt` and `ext` as a byte written to `HALT` gives them; bit 3 is ignored, and `ext` may be 1 only when `state` is 0
(R39). -/
def Halt.ofRegister (v : BitVec 8) : Option (Halt × Bool) :=
  match Halt.ofFields (v.extractLsb' 0 2).toNat (v.extractLsb' 4 4).toNat with
  | none => none
  | some h => if v.getLsbD 2 = true ∧ h ≠ .running then none else some (h, v.getLsbD 2)

end Sys2Proof.Machine
end

