-- ==== Sys2Proof/Machine/Operands.lean ====
section
/-!
DEFINITION. The operand forms: entries of the operand stack by depth (00_scope.md R15, 10_state.md R26) and bytes of the
code (20_memory.md R52, R69). There are no other forms (30_encoding.md R70, R73).
-/

namespace Sys2Proof.Machine

/-- `sp`: the number of words on the stack (R26). -/
def State.sp (s : State) : Nat := s.stack.length

/-- Read of `x[i]`, the entry at depth `i`; none where there is no such entry (R15, R26). -/
def State.peek (s : State) (i : Nat) : Option Word := s.stack[i]?

/-- The exchange of `x[0]` and `x[n]`, the entries between untouched (R178); none when there is no `x[n]`. -/
def swapTop (n : Nat) (stack : List Word) : Option (List Word) :=
  match stack[0]?, stack[n]? with
  | some x, some y => some ((stack.set 0 y).set n x)
  | _, _ => none

/-- `CodeRead(addr)`: the code byte at an offset, 0x00 past the end; it never faults (R52). -/
def State.codeRead (s : State) (addr : Nat) : Byte := s.cfg.code.getD addr 0

/-- The bytes `CodeRead(addr), CodeRead(addr+1), …` that lie in the code: what the fetch decodes (R69). -/
def State.codeFrom (s : State) (addr : Nat) : List Byte := s.cfg.code.drop addr

/-- The length of the instruction an opcode byte begins (R84): by the byte alone, unassigned ones included. -/
def opcodeLength (v : Byte) : Nat :=
  if 0x60 ≤ v.toNat ∧ v.toNat ≤ 0x7f then 1 + (v.toNat - 0x5f) else 1

/-- The linear sweep of R84: the instruction boundaries in `code`, whose first byte has offset `i`, when the first
`skip` bytes belong to an instruction already met. -/
def sweep : List Byte → Nat → Nat → List Nat
  | [], _, _ => []
  | v :: bs, 0, i => i :: sweep bs (opcodeLength v - 1) (i + 1)
  | _ :: bs, skip + 1, i => sweep bs skip (i + 1)

/-- `B`: the instruction boundaries of the loaded code (R84). -/
def boundaries (code : List Byte) : List Nat := sweep code 0 0

/-- `JD`: the valid jump destinations (10_state.md R35). -/
def jumpDests (code : List Byte) (jumpdestRequired : Bool) : List Nat :=
  (boundaries code).filter fun i => !jumpdestRequired || decide (code.getD i 0 = 0x5b)

/-- Is an offset in `JD` of the loaded code (R35)? -/
def State.isJumpDest (s : State) (t : Nat) : Bool :=
  (jumpDests s.cfg.code s.cfg.jumpdestRequired).contains t

end Sys2Proof.Machine
end

