-- ==== Sys2Proof/Machine/Ops.lean ====
section
/-!
DEFINITION. The named operations: data memory (20_memory.md R57 to R59), the checks of a step (44_seq_stack_control.md
R170 steps 3 to 6), taking an exception (60_exceptions.md R310), and the completion of a step with its trace event
(R172). There is no return from an exception (R313): only reset leaves a halted state.
-/

namespace Sys2Proof.Machine

/-- The outcome of a step of this machine. -/
abbrev StepOutcome := Host.Outcome State Fault Refusal

/-- The byte of memory at an offset (R28). -/
def Memory.read : Memory → Nat → Byte
  | [], _ => Memory.unlisted
  | (c, x) :: rest, a => if c = a then x else Memory.read rest a

/-- The write of one byte; it keeps the canonical form of `Memory.wf`. -/
def Memory.write : Memory → Nat → Byte → Memory
  | [], a, b => if b = Memory.unlisted then [] else [(a, b)]
  | (c, x) :: rest, a, b =>
    if a < c then (if b = Memory.unlisted then (c, x) :: rest else (a, b) :: (c, x) :: rest)
    else if a = c then (if b = Memory.unlisted then rest else (a, b) :: rest)
    else (c, x) :: Memory.write rest a b

/-- The offsets of a memory rise strictly, from `low` on, and no entry is what an unlisted offset reads as. -/
def Memory.wfFrom : Nat → Memory → Bool
  | _, [] => true
  | low, (c, x) :: rest => decide (low ≤ c) && decide (x ≠ Memory.unlisted) && Memory.wfFrom (c + 1) rest

/-- The canonical form of a memory: offsets strictly rising, no entry equal to what an unlisted offset reads as. -/
def Memory.wf (m : Memory) : Bool := Memory.wfFrom 0 m

/-- `MemRead(addr, n)` (R57): the bytes at `addr .. addr+n-1`, lowest offset first. -/
def memRead (m : Memory) (addr n : Nat) : List Byte :=
  (List.range n).map fun i => m.read (addr + i)

/-- `MemWrite(addr, n, v)` (R58), `n` the length of `v`: the bytes of `v` at `addr` and on. -/
def memWrite (m : Memory) (addr : Nat) : List Byte → Memory
  | [] => m
  | b :: bs => memWrite (m.write addr b) (addr + 1) bs

/-- `Touch(addr, n)` (R59): `OutOfResource`, or the new value of `msize`. -/
def touch (memLimit msize addr n : Nat) : Except ErrorKind Nat :=
  if n = 0 then .ok msize
  else if addr + n > memLimit then .error .outOfResource
  else .ok (max msize (Config.wordBytes * ((addr + n + (Config.wordBytes - 1)) / Config.wordBytes)))

/-- `Touch` in a state. -/
def State.touch (s : State) (addr n : Nat) : Except ErrorKind Nat :=
  Sys2Proof.Machine.touch s.memLimit s.msize addr n

/-- `raise K` (R310): the whole of exception entry. Nothing but `halt` changes. -/
def State.raise (s : State) (k : ErrorKind) : State := { s with halt := .exception k }

/-- Is the opcode activated? An unassigned byte value never is (R32). -/
def State.isActive (s : State) (v : Byte) : Bool :=
  (lookupByValue v).isSome && s.cfg.active.getLsbD v.toNat

/-- The meter's answer to the next query is `exhausted` (R33). -/
def State.meterExhausted (s : State) : Bool := decide (s.host.meter = some 0)

/-- What the block presents to the meter (R33): the opcode byte and the operand words. For DUPn and SWAPn, whose `pops` is
only a bound (R75), the spec does not say which words these are; the model presents the whole top `pops` words for
every opcode. DESIGN CHOICE, log 22. -/
def State.meterQuery (s : State) (e : OpInfo) : Byte × List Word := (e.value, s.stack.take e.pops)

/-- The meter after it answered `ok` once (log 5, log 6). -/
def HostSide.tick (h : HostSide) : HostSide := { h with meter := h.meter.map (· - 1) }

/-- Steps 3 to 6 of R170, in their order (R311): legality, underflow, overflow, meter. The error kind of the first
check that fails. -/
def State.checks (s : State) (e : OpInfo) : Option ErrorKind :=
  if s.isActive e.value = false then some .illegalOperation
  else if s.sp < e.pops then some .stackUnderflow
  else if s.sp - e.pops + e.pushes > s.stackLimit then some .stackOverflow
  else if s.meterExhausted then some .outOfResource
  else none

/-- The end of a step that completes (R170 step 8, R172): the effect `t` of the step on the state `s` stands, its trace
event is appended, and the meter has answered once. -/
def State.retire (s : State) (v : Byte) (t : State) : State :=
  { t with trace := s.trace ++ [{ pc := s.pc, opcode := v, stack := t.stack }], host := s.host.tick }

/-- Steps 3 to 8 of R170 for an opcode whose effect at step 7 is `effect`: a state, or an error kind that it raises. -/
def issue (e : OpInfo) (effect : State → Except ErrorKind State) (s : State) : StepOutcome :=
  match s.checks e with
  | some k => .next (s.raise k)
  | none =>
    match effect s with
    | .error k => .next (s.raise k)
    | .ok t => .next (s.retire e.value t)

/-- Steps 3 to 7 of R170 for an opcode of class EXT (R210): after the checks, `ext <- 1` and nothing else; no trace
event. -/
def handoff (e : OpInfo) (s : State) : StepOutcome :=
  match s.checks e with
  | some k => .next (s.raise k)
  | none => .next { s with ext := true, host := s.host.tick }

/-- The code with the bytes of `bytes` placed from an offset on; offsets before it that had no byte get 0x00. -/
def placeBytes (code : List Byte) (addr : Nat) (bytes : List Byte) : List Byte :=
  takePadded addr code ++ (bytes ++ code.drop (addr + bytes.length))

end Sys2Proof.Machine
end

