-- ==== Sys2Proof/Machine/Alu.lean ====
section
/-!
DEFINITION. The functions of the ALU (40_alu_arithmetic.md, 41_alu_compare_bitwise.md, 42_alu_shift_rotate.md) and its port
(R82, R114). Each is computed over the integers and narrowed once, by `word` (00_scope.md R13).
-/

namespace Sys2Proof.Machine

/-- WORD (R100): `Overflow` for more than 32 bytes, else the bytes right-aligned. -/
def wordConstruct (d : List Byte) : PortAnswer :=
  if d.length > 32 then .error .overflow else .result (packBytes d)

/-- ADD (R101). -/
def aluAdd (a b : Word) : Word := word (uval a + uval b)

/-- MUL (R102). -/
def aluMul (a b : Word) : Word := word (uval a * uval b)

/-- SUB (R103): `a` is the minuend. -/
def aluSub (a b : Word) : Word := word (uval a - uval b)

/-- DIV (R104): the zero word for a zero divisor. -/
def aluDiv (a b : Word) : Word := if b = 0 then 0 else word (uval a / uval b)

/-- SDIV (R105): truncated toward zero; the zero word for a zero divisor. -/
def aluSdiv (a b : Word) : Word :=
  if b = 0 then 0
  else if a = wordMin ∧ b = wordOnes then wordMin
  else word (Int.tdiv (sval a) (sval b))

/-- MOD (R106). -/
def aluMod (a b : Word) : Word := if b = 0 then 0 else word (uval a % uval b)

/-- SMOD (R107): the sign of the dividend. -/
def aluSmod (a b : Word) : Word :=
  if b = 0 then 0 else word (Int.sign (sval a) * (((sval a).natAbs % (sval b).natAbs : Nat) : Int))

/-- ADDMOD (R108): the sum is not reduced modulo 2^256 first. -/
def aluAddmod (a b c : Word) : Word := if c = 0 then 0 else word ((uval a + uval b) % uval c)

/-- MULMOD (R109): the product is not truncated first. -/
def aluMulmod (a b c : Word) : Word := if c = 0 then 0 else word ((uval a * uval b) % uval c)

/-- Square-and-multiply modulo 2^256: `acc * base ^ e` for an exponent of at most `fuel` bits. -/
def powLoop : Nat → Nat → Nat → Nat → Nat
  | 0, _, _, acc => acc
  | fuel + 1, base, e, acc =>
    powLoop fuel (base * base % 2 ^ 256) (e / 2) (if e % 2 = 1 then acc * base % 2 ^ 256 else acc)

/-- EXP (R110): `u(a) ^ u(b)` modulo 2^256, by square-and-multiply; `0 ^ 0` is 1. -/
def aluExp (a b : Word) : Word := word (powLoop 256 a.toNat b.toNat 1 : Int)

/-- The value of SIGNEXTEND for an index `k` up to 31 (R111): bits above `8k+7` are copies of that bit. -/
def signExtendByte (k : Nat) (b : Word) : Word := (b.extractLsb' 0 (8 * k + 8)).signExtend 256

/-- SIGNEXTEND (R111): `RangeError` for an index above 31. -/
def aluSignextend (a b : Word) : PortAnswer :=
  if a.toNat > 31 then .error .rangeError else .result (signExtendByte a.toNat b)

/-- NEG (R113). -/
def aluNeg (a : Word) : Word := word (-uval a)

/-- LT (R121). -/
def aluLt (a b : Word) : Word := boolWord (decide (uval a < uval b))

/-- GT (R122). -/
def aluGt (a b : Word) : Word := boolWord (decide (uval a > uval b))

/-- SLT (R123). -/
def aluSlt (a b : Word) : Word := boolWord (decide (sval a < sval b))

/-- SGT (R124). -/
def aluSgt (a b : Word) : Word := boolWord (decide (sval a > sval b))

/-- EQ (R125). -/
def aluEq (a b : Word) : Word := boolWord (decide (a = b))

/-- ISZERO (R126). -/
def aluIszero (a : Word) : Word := boolWord (decide (uval a = 0))

/-- ISNEG (R127): the most significant bit. -/
def aluIsneg (a : Word) : Word := boolWord (a.getLsbD 255)

/-- AND (R128). -/
def aluAnd (a b : Word) : Word := a &&& b

/-- OR (R129). -/
def aluOr (a b : Word) : Word := a ||| b

/-- XOR (R130). -/
def aluXor (a b : Word) : Word := a ^^^ b

/-- NOT (R131). -/
def aluNot (a : Word) : Word := ~~~a

/-- BYTE (R132): big index; the zero word for an index of 32 or more. -/
def aluByte (a b : Word) : Word := if a.toNat ≥ 32 then 0 else (byteBE b a.toNat).setWidth 256

/-- SHL (R140): the amount is the whole word `a`, not reduced. -/
def aluShl (a b : Word) : Word := if a.toNat ≥ 256 then 0 else word (uval b * 2 ^ a.toNat)

/-- SHR (R141). -/
def aluShr (a b : Word) : Word := if a.toNat ≥ 256 then 0 else word (uval b / 2 ^ a.toNat)

/-- SAR (R142): rounds toward minus infinity. -/
def aluSar (a b : Word) : Word :=
  if a.toNat ≥ 256 then (if b.getLsbD 255 then wordOnes else 0)
  else word (Int.fdiv (sval b) (2 ^ a.toNat))

/-- ROL (R143): the amount is reduced modulo 256. -/
def aluRol (a b : Word) : Word := b.rotateLeft (a.toNat % 256)

/-- ROR (R144): the amount is reduced modulo 256. -/
def aluRor (a b : Word) : Word := b.rotateRight (a.toNat % 256)

/-- A function of one word at the port. -/
def portUnary (f : Word → Word) (a _ _ : Word) : PortAnswer := .result (f a)

/-- A function of two words at the port. -/
def portBinary (f : Word → Word → Word) (a b _ : Word) : PortAnswer := .result (f a b)

/-- A function of three words at the port. -/
def portTernary (f : Word → Word → Word → Word) (a b c : Word) : PortAnswer := .result (f a b c)

/-- The function selects of the ALU port (R82). -/
def aluFunctions : List (Byte × (Word → Word → Word → PortAnswer)) :=
  [ (0x01, portBinary aluAdd), (0x02, portBinary aluMul), (0x03, portBinary aluSub), (0x04, portBinary aluDiv)
  , (0x05, portBinary aluSdiv), (0x06, portBinary aluMod), (0x07, portBinary aluSmod), (0x08, portTernary aluAddmod)
  , (0x09, portTernary aluMulmod), (0x0a, portBinary aluExp), (0x0b, fun a b _ => aluSignextend a b)
  , (0x10, portBinary aluLt), (0x11, portBinary aluGt), (0x12, portBinary aluSlt), (0x13, portBinary aluSgt)
  , (0x14, portBinary aluEq), (0x15, portUnary aluIszero), (0x16, portBinary aluAnd), (0x17, portBinary aluOr)
  , (0x18, portBinary aluXor), (0x19, portUnary aluNot), (0x1a, portBinary aluByte), (0x1b, portBinary aluShl)
  , (0x1c, portBinary aluShr), (0x1d, portBinary aluSar), (0xc0, portUnary aluNeg), (0xc1, portUnary aluIsneg)
  , (0xc2, portBinary aluRol), (0xc3, portBinary aluRor) ]

/-- `ALU(fn, a, b, c)` (R114): the answer of the port; a select that names no function answers the error
`InvalidInstruction` (R82). -/
def alu (fn : Byte) (a b c : Word) : PortAnswer :=
  match aluFunctions.find? (fun p => decide (p.1 = fn)) with
  | some p => p.2 a b c
  | none => .error .invalidInstruction

end Sys2Proof.Machine
end

