-- ==== Sys2Proof/Machine/Effects.lean ====
section
/-!
DEFINITION. The effects of step 7 of the step function (44_seq_stack_control.md, 45_seq_memory.md), each shared by the
instructions of one shape. Step 4 has checked the operands; where an effect is given fewer, it raises the kind of step 4
(log 17).
-/

namespace Sys2Proof.Machine

/-- The state after an instruction that only replaces the stack and goes to the next byte. -/
def State.advance (s : State) (stack : List Word) : State := { s with stack := stack, pc := s.pc + 1 }

/-- R171 with one operand. -/
def unaryEffect (f : Word → Word) (s : State) : Except ErrorKind State :=
  match s.stack with
  | a :: rest => .ok (s.advance (f a :: rest))
  | _ => .error .stackUnderflow

/-- R171 with two operands: `a` is the top of the stack. -/
def binaryEffect (f : Word → Word → Word) (s : State) : Except ErrorKind State :=
  match s.stack with
  | a :: b :: rest => .ok (s.advance (f a b :: rest))
  | _ => .error .stackUnderflow

/-- R171 with three operands. -/
def ternaryEffect (f : Word → Word → Word → Word) (s : State) : Except ErrorKind State :=
  match s.stack with
  | a :: b :: c :: rest => .ok (s.advance (f a b c :: rest))
  | _ => .error .stackUnderflow

/-- SIGNEXTEND, the instruction (R112): an index above 31 raises `RangeError` under `fault` and leaves the value under
`passthrough`. -/
def signextendEffect (s : State) : Except ErrorKind State :=
  match s.stack with
  | a :: b :: rest =>
    match aluSignextend a b with
    | .result r => .ok (s.advance (r :: rest))
    | .error k =>
      match s.cfg.signextendOor with
      | .fault => .error k
      | .passthrough => .ok (s.advance (b :: rest))
  | _ => .error .stackUnderflow

/-- STOP (R173). -/
def stopEffect (s : State) : Except ErrorKind State := .ok { s with halt := .normal }

/-- RETURN and REVERT (R183, R184): `RET` takes the bytes of the range, and the run halts. -/
def outputEffect (outcome : Halt) (s : State) : Except ErrorKind State :=
  match s.stack with
  | off :: size :: rest =>
    match s.touch off.toNat size.toNat with
    | .error k => .error k
    | .ok m => .ok { s with stack := rest, msize := m, ret := memRead s.mem off.toNat size.toNat, halt := outcome }
  | _ => .error .stackUnderflow

/-- POP (R175). -/
def popEffect (s : State) : Except ErrorKind State :=
  match s.stack with
  | _ :: rest => .ok (s.advance rest)
  | _ => .error .stackUnderflow

/-- PUSHn (R176): the word of the immediate; the next instruction is `n` bytes further. -/
def pushEffect (n : Nat) (imm : Word) (s : State) : Except ErrorKind State :=
  .ok { s with stack := imm :: s.stack, pc := s.pc + 1 + n }

/-- DUPn (R177). -/
def dupEffect (n : Nat) (s : State) : Except ErrorKind State :=
  match s.peek (n - 1) with
  | some x => .ok (s.advance (x :: s.stack))
  | none => .error .stackUnderflow

/-- SWAPn (R178). -/
def swapEffect (n : Nat) (s : State) : Except ErrorKind State :=
  match swapTop n s.stack with
  | some st => .ok (s.advance st)
  | none => .error .stackUnderflow

/-- JUMP (R179): the target is the full 256-bit value. -/
def jumpEffect (s : State) : Except ErrorKind State :=
  match s.stack with
  | t :: rest => if s.isJumpDest t.toNat then .ok { s with stack := rest, pc := t.toNat } else .error .invalidJump
  | _ => .error .stackUnderflow

/-- JUMPI (R180): with a zero condition the target is not examined. -/
def jumpiEffect (s : State) : Except ErrorKind State :=
  match s.stack with
  | t :: cond :: rest =>
    if wordTrue cond then
      if s.isJumpDest t.toNat then .ok { s with stack := rest, pc := t.toNat } else .error .invalidJump
    else .ok (s.advance rest)
  | _ => .error .stackUnderflow

/-- PC (R181): the offset of the PC instruction itself. -/
def pcEffect (s : State) : Except ErrorKind State := .ok (s.advance (word (s.pc : Int) :: s.stack))

/-- JUMPDEST (R182). -/
def jumpdestEffect (s : State) : Except ErrorKind State := .ok (s.advance s.stack)

/-- MLOAD (R200): 32 bytes, big-endian, at any offset. -/
def mloadEffect (s : State) : Except ErrorKind State :=
  match s.stack with
  | off :: rest =>
    match s.touch off.toNat 32 with
    | .error k => .error k
    | .ok m => .ok { s with stack := packBytes (memRead s.mem off.toNat 32) :: rest, msize := m, pc := s.pc + 1 }
  | _ => .error .stackUnderflow

/-- MSTORE and MSTORE8 (R201, R202): the bytes of the value that are stored, at the offset. -/
def storeEffect (bytesOf : Word → List Byte) (s : State) : Except ErrorKind State :=
  match s.stack with
  | off :: val :: rest =>
    match s.touch off.toNat (bytesOf val).length with
    | .error k => .error k
    | .ok m => .ok { s with stack := rest, msize := m, mem := memWrite s.mem off.toNat (bytesOf val), pc := s.pc + 1 }
  | _ => .error .stackUnderflow

/-- MSIZE (R203). -/
def msizeEffect (s : State) : Except ErrorKind State := .ok (s.advance (word (s.msize : Int) :: s.stack))

/-- The answer of the ALU port to its request (R114): nothing of the block changes. -/
def State.answerPort (s : State) (ans : PortAnswer) : State :=
  { s with host := { s.host with request := none, answer := some ans } }

end Sys2Proof.Machine
end

