-- ==== Sys2Proof/Machine/Arithmetic.lean ====
section
/-!
DEFINITION. The arithmetic instructions of class ALU (40_alu_arithmetic.md), dispatched by 44_seq_stack_control.md R171.
-/

namespace Sys2Proof.Machine

/-- ADD (R101). -/
def execAdd (s : State) : StepOutcome := issue infoAdd (binaryEffect aluAdd) s

/-- MUL (R102). -/
def execMul (s : State) : StepOutcome := issue infoMul (binaryEffect aluMul) s

/-- SUB (R103). -/
def execSub (s : State) : StepOutcome := issue infoSub (binaryEffect aluSub) s

/-- DIV (R104). -/
def execDiv (s : State) : StepOutcome := issue infoDiv (binaryEffect aluDiv) s

/-- SDIV (R105). -/
def execSdiv (s : State) : StepOutcome := issue infoSdiv (binaryEffect aluSdiv) s

/-- MOD (R106). -/
def execMod (s : State) : StepOutcome := issue infoMod (binaryEffect aluMod) s

/-- SMOD (R107). -/
def execSmod (s : State) : StepOutcome := issue infoSmod (binaryEffect aluSmod) s

/-- ADDMOD (R108). -/
def execAddmod (s : State) : StepOutcome := issue infoAddmod (ternaryEffect aluAddmod) s

/-- MULMOD (R109). -/
def execMulmod (s : State) : StepOutcome := issue infoMulmod (ternaryEffect aluMulmod) s

/-- EXP (R110). -/
def execExp (s : State) : StepOutcome := issue infoExp (binaryEffect aluExp) s

/-- SIGNEXTEND (R112). -/
def execSignextend (s : State) : StepOutcome := issue infoSignextend signextendEffect s

end Sys2Proof.Machine
end

