-- ==== Sys2Proof/Machine/Comparison.lean ====
section
/-!
DEFINITION. The comparison and bitwise instructions of class ALU (41_alu_compare_bitwise.md), dispatched by
44_seq_stack_control.md R171.
-/

namespace Sys2Proof.Machine

/-- LT (R121). -/
def execLt (s : State) : StepOutcome := issue infoLt (binaryEffect aluLt) s

/-- GT (R122). -/
def execGt (s : State) : StepOutcome := issue infoGt (binaryEffect aluGt) s

/-- SLT (R123). -/
def execSlt (s : State) : StepOutcome := issue infoSlt (binaryEffect aluSlt) s

/-- SGT (R124). -/
def execSgt (s : State) : StepOutcome := issue infoSgt (binaryEffect aluSgt) s

/-- EQ (R125). -/
def execEq (s : State) : StepOutcome := issue infoEq (binaryEffect aluEq) s

/-- ISZERO (R126). -/
def execIszero (s : State) : StepOutcome := issue infoIszero (unaryEffect aluIszero) s

/-- AND (R128). -/
def execAnd (s : State) : StepOutcome := issue infoAnd (binaryEffect aluAnd) s

/-- OR (R129). -/
def execOr (s : State) : StepOutcome := issue infoOr (binaryEffect aluOr) s

/-- XOR (R130). -/
def execXor (s : State) : StepOutcome := issue infoXor (binaryEffect aluXor) s

/-- NOT (R131). -/
def execNot (s : State) : StepOutcome := issue infoNot (unaryEffect aluNot) s

/-- BYTE (R132). -/
def execByte (s : State) : StepOutcome := issue infoByte (binaryEffect aluByte) s

end Sys2Proof.Machine
end

