-- ==== Sys2Proof/Machine/Control.lean ====
section
/-!
DEFINITION. The halting and control-transfer instructions (44_seq_stack_control.md R173, R179 to R184).
-/

namespace Sys2Proof.Machine

/-- STOP (R173). -/
def execStop (s : State) : StepOutcome := issue infoStop stopEffect s

/-- JUMP (R179). -/
def execJump (s : State) : StepOutcome := issue infoJump jumpEffect s

/-- JUMPI (R180). -/
def execJumpi (s : State) : StepOutcome := issue infoJumpi jumpiEffect s

/-- PC (R181). -/
def execPc (s : State) : StepOutcome := issue infoPc pcEffect s

/-- JUMPDEST (R182). -/
def execJumpdest (s : State) : StepOutcome := issue infoJumpdest jumpdestEffect s

/-- RETURN (R183). -/
def execReturn (s : State) : StepOutcome := issue infoReturn (outputEffect .normal) s

/-- REVERT (R184). -/
def execRevert (s : State) : StepOutcome := issue infoRevert (outputEffect .revert) s

end Sys2Proof.Machine
end

