-- ==== Sys2Proof/Machine/External.lean ====
section
/-!
DEFINITION. The instructions handed off to the host (46_external_opcodes.md R210 to R245). What each computes is the host's
(00_scope.md R5); the block checks it and sets `ext`.
-/

namespace Sys2Proof.Machine

/-- SHA3 (R212). -/
def execSha3 (s : State) : StepOutcome := handoff infoSha3 s

/-- ADDRESS (R213). -/
def execAddress (s : State) : StepOutcome := handoff infoAddress s

/-- BALANCE (R214). -/
def execBalance (s : State) : StepOutcome := handoff infoBalance s

/-- ORIGIN (R215). -/
def execOrigin (s : State) : StepOutcome := handoff infoOrigin s

/-- CALLER (R216). -/
def execCaller (s : State) : StepOutcome := handoff infoCaller s

/-- CALLVALUE (R217). -/
def execCallvalue (s : State) : StepOutcome := handoff infoCallvalue s

/-- CALLDATALOAD (R218). -/
def execCalldataload (s : State) : StepOutcome := handoff infoCalldataload s

/-- CALLDATASIZE (R219). -/
def execCalldatasize (s : State) : StepOutcome := handoff infoCalldatasize s

/-- CALLDATACOPY (R220). -/
def execCalldatacopy (s : State) : StepOutcome := handoff infoCalldatacopy s

/-- CODESIZE (R221). -/
def execCodesize (s : State) : StepOutcome := handoff infoCodesize s

/-- CODECOPY (R222). -/
def execCodecopy (s : State) : StepOutcome := handoff infoCodecopy s

/-- GASPRICE (R223). -/
def execGasprice (s : State) : StepOutcome := handoff infoGasprice s

/-- EXTCODESIZE (R224). -/
def execExtcodesize (s : State) : StepOutcome := handoff infoExtcodesize s

/-- EXTCODECOPY (R225). -/
def execExtcodecopy (s : State) : StepOutcome := handoff infoExtcodecopy s

/-- RETURNDATASIZE (R226). -/
def execReturndatasize (s : State) : StepOutcome := handoff infoReturndatasize s

/-- RETURNDATACOPY (R227). -/
def execReturndatacopy (s : State) : StepOutcome := handoff infoReturndatacopy s

/-- EXTCODEHASH (R228). -/
def execExtcodehash (s : State) : StepOutcome := handoff infoExtcodehash s

/-- BLOCKHASH (R229). -/
def execBlockhash (s : State) : StepOutcome := handoff infoBlockhash s

/-- COINBASE (R230). -/
def execCoinbase (s : State) : StepOutcome := handoff infoCoinbase s

/-- TIMESTAMP (R231). -/
def execTimestamp (s : State) : StepOutcome := handoff infoTimestamp s

/-- NUMBER (R232). -/
def execNumber (s : State) : StepOutcome := handoff infoNumber s

/-- DIFFICULTY (R233). -/
def execDifficulty (s : State) : StepOutcome := handoff infoDifficulty s

/-- GASLIMIT (R234). -/
def execGaslimit (s : State) : StepOutcome := handoff infoGaslimit s

/-- SLOAD (R235). -/
def execSload (s : State) : StepOutcome := handoff infoSload s

/-- SSTORE (R236). -/
def execSstore (s : State) : StepOutcome := handoff infoSstore s

/-- GAS (R237). -/
def execGas (s : State) : StepOutcome := handoff infoGas s

/-- LOG0 (R238). -/
def execLog0 (s : State) : StepOutcome := handoff infoLog0 s

/-- LOG1 (R238). -/
def execLog1 (s : State) : StepOutcome := handoff infoLog1 s

/-- LOG2 (R238). -/
def execLog2 (s : State) : StepOutcome := handoff infoLog2 s

/-- LOG3 (R238). -/
def execLog3 (s : State) : StepOutcome := handoff infoLog3 s

/-- LOG4 (R238). -/
def execLog4 (s : State) : StepOutcome := handoff infoLog4 s

/-- CREATE (R239). -/
def execCreate (s : State) : StepOutcome := handoff infoCreate s

/-- CALL (R240). -/
def execCall (s : State) : StepOutcome := handoff infoCall s

/-- CALLCODE (R241). -/
def execCallcode (s : State) : StepOutcome := handoff infoCallcode s

/-- DELEGATECALL (R242). -/
def execDelegatecall (s : State) : StepOutcome := handoff infoDelegatecall s

/-- CREATE2 (R243). -/
def execCreate2 (s : State) : StepOutcome := handoff infoCreate2 s

/-- STATICCALL (R244). -/
def execStaticcall (s : State) : StepOutcome := handoff infoStaticcall s

/-- SELFDESTRUCT (R245). -/
def execSelfdestruct (s : State) : StepOutcome := handoff infoSelfdestruct s

end Sys2Proof.Machine
end

