-- ==== Sys2Proof/Machine/Memory.lean ====
section
/-!
DEFINITION. The data-memory instructions (45_seq_memory.md R200 to R203).
-/

namespace Sys2Proof.Machine

/-- MLOAD (R200). -/
def execMload (s : State) : StepOutcome := issue infoMload mloadEffect s

/-- MSTORE (R201). -/
def execMstore (s : State) : StepOutcome := issue infoMstore (storeEffect bytes32) s

/-- MSTORE8 (R202). -/
def execMstore8 (s : State) : StepOutcome := issue infoMstore8 (storeEffect fun val => [byteLE val 0]) s

/-- MSIZE (R203). -/
def execMsize (s : State) : StepOutcome := issue infoMsize msizeEffect s

end Sys2Proof.Machine
end

