-- ==== Sys2Proof/Machine/Port.lean ====
section
/-!
DEFINITION. The functions of the ALU port that have no opcode (30_encoding.md R82): NEG, ISNEG, ROL, ROR. Their operands are the
port's inputs and their result is the port's answer; no state of the block changes (R114; log 10).
-/

namespace Sys2Proof.Machine

/-- NEG (R113). -/
def execNeg (s : State) : StepOutcome := .next (s.answerPort (.result (aluNeg s.host.a)))

/-- ISNEG (R127). -/
def execIsneg (s : State) : StepOutcome := .next (s.answerPort (.result (aluIsneg s.host.a)))

/-- ROL (R143). -/
def execRol (s : State) : StepOutcome := .next (s.answerPort (.result (aluRol s.host.a s.host.b)))

/-- ROR (R144). -/
def execRor (s : State) : StepOutcome := .next (s.answerPort (.result (aluRor s.host.a s.host.b)))

end Sys2Proof.Machine
end

