-- ==== Sys2Proof/Machine/Shift.lean ====
section
/-!
DEFINITION. The shift instructions of class ALU (42_alu_shift_rotate.md), dispatched by 44_seq_stack_control.md R171.
-/

namespace Sys2Proof.Machine

/-- SHL (R140). -/
def execShl (s : State) : StepOutcome := issue infoShl (binaryEffect aluShl) s

/-- SHR (R141). -/
def execShr (s : State) : StepOutcome := issue infoShr (binaryEffect aluShr) s

/-- SAR (R142). -/
def execSar (s : State) : StepOutcome := issue infoSar (binaryEffect aluSar) s

end Sys2Proof.Machine
end

