-- ==== Sys2Proof/Machine/Stack.lean ====
section
/-!
DEFINITION. The stack instructions (44_seq_stack_control.md R175 to R178).
-/

namespace Sys2Proof.Machine

/-- POP (R175). -/
def execPop (s : State) : StepOutcome := issue infoPop popEffect s

/-- PUSH1 (R176). -/
def execPush1 (imm : Word) (s : State) : StepOutcome := issue infoPush1 (pushEffect 1 imm) s

/-- PUSH2 (R176). -/
def execPush2 (imm : Word) (s : State) : StepOutcome := issue infoPush2 (pushEffect 2 imm) s

/-- PUSH3 (R176). -/
def execPush3 (imm : Word) (s : State) : StepOutcome := issue infoPush3 (pushEffect 3 imm) s

/-- PUSH4 (R176). -/
def execPush4 (imm : Word) (s : State) : StepOutcome := issue infoPush4 (pushEffect 4 imm) s

/-- PUSH5 (R176). -/
def execPush5 (imm : Word) (s : State) : StepOutcome := issue infoPush5 (pushEffect 5 imm) s

/-- PUSH6 (R176). -/
def execPush6 (imm : Word) (s : State) : StepOutcome := issue infoPush6 (pushEffect 6 imm) s

/-- PUSH7 (R176). -/
def execPush7 (imm : Word) (s : State) : StepOutcome := issue infoPush7 (pushEffect 7 imm) s

/-- PUSH8 (R176). -/
def execPush8 (imm : Word) (s : State) : StepOutcome := issue infoPush8 (pushEffect 8 imm) s

/-- PUSH9 (R176). -/
def execPush9 (imm : Word) (s : State) : StepOutcome := issue infoPush9 (pushEffect 9 imm) s

/-- PUSH10 (R176). -/
def execPush10 (imm : Word) (s : State) : StepOutcome := issue infoPush10 (pushEffect 10 imm) s

/-- PUSH11 (R176). -/
def execPush11 (imm : Word) (s : State) : StepOutcome := issue infoPush11 (pushEffect 11 imm) s

/-- PUSH12 (R176). -/
def execPush12 (imm : Word) (s : State) : StepOutcome := issue infoPush12 (pushEffect 12 imm) s

/-- PUSH13 (R176). -/
def execPush13 (imm : Word) (s : State) : StepOutcome := issue infoPush13 (pushEffect 13 imm) s

/-- PUSH14 (R176). -/
def execPush14 (imm : Word) (s : State) : StepOutcome := issue infoPush14 (pushEffect 14 imm) s

/-- PUSH15 (R176). -/
def execPush15 (imm : Word) (s : State) : StepOutcome := issue infoPush15 (pushEffect 15 imm) s

/-- PUSH16 (R176). -/
def execPush16 (imm : Word) (s : State) : StepOutcome := issue infoPush16 (pushEffect 16 imm) s

/-- PUSH17 (R176). -/
def execPush17 (imm : Word) (s : State) : StepOutcome := issue infoPush17 (pushEffect 17 imm) s

/-- PUSH18 (R176). -/
def execPush18 (imm : Word) (s : State) : StepOutcome := issue infoPush18 (pushEffect 18 imm) s

/-- PUSH19 (R176). -/
def execPush19 (imm : Word) (s : State) : StepOutcome := issue infoPush19 (pushEffect 19 imm) s

/-- PUSH20 (R176). -/
def execPush20 (imm : Word) (s : State) : StepOutcome := issue infoPush20 (pushEffect 20 imm) s

/-- PUSH21 (R176). -/
def execPush21 (imm : Word) (s : State) : StepOutcome := issue infoPush21 (pushEffect 21 imm) s

/-- PUSH22 (R176). -/
def execPush22 (imm : Word) (s : State) : StepOutcome := issue infoPush22 (pushEffect 22 imm) s

/-- PUSH23 (R176). -/
def execPush23 (imm : Word) (s : State) : StepOutcome := issue infoPush23 (pushEffect 23 imm) s

/-- PUSH24 (R176). -/
def execPush24 (imm : Word) (s : State) : StepOutcome := issue infoPush24 (pushEffect 24 imm) s

/-- PUSH25 (R176). -/
def execPush25 (imm : Word) (s : State) : StepOutcome := issue infoPush25 (pushEffect 25 imm) s

/-- PUSH26 (R176). -/
def execPush26 (imm : Word) (s : State) : StepOutcome := issue infoPush26 (pushEffect 26 imm) s

/-- PUSH27 (R176). -/
def execPush27 (imm : Word) (s : State) : StepOutcome := issue infoPush27 (pushEffect 27 imm) s

/-- PUSH28 (R176). -/
def execPush28 (imm : Word) (s : State) : StepOutcome := issue infoPush28 (pushEffect 28 imm) s

/-- PUSH29 (R176). -/
def execPush29 (imm : Word) (s : State) : StepOutcome := issue infoPush29 (pushEffect 29 imm) s

/-- PUSH30 (R176). -/
def execPush30 (imm : Word) (s : State) : StepOutcome := issue infoPush30 (pushEffect 30 imm) s

/-- PUSH31 (R176). -/
def execPush31 (imm : Word) (s : State) : StepOutcome := issue infoPush31 (pushEffect 31 imm) s

/-- PUSH32 (R176). -/
def execPush32 (imm : Word) (s : State) : StepOutcome := issue infoPush32 (pushEffect 32 imm) s

/-- DUP1 (R177). -/
def execDup1 (s : State) : StepOutcome := issue infoDup1 (dupEffect 1) s

/-- DUP2 (R177). -/
def execDup2 (s : State) : StepOutcome := issue infoDup2 (dupEffect 2) s

/-- DUP3 (R177). -/
def execDup3 (s : State) : StepOutcome := issue infoDup3 (dupEffect 3) s

/-- DUP4 (R177). -/
def execDup4 (s : State) : StepOutcome := issue infoDup4 (dupEffect 4) s

/-- DUP5 (R177). -/
def execDup5 (s : State) : StepOutcome := issue infoDup5 (dupEffect 5) s

/-- DUP6 (R177). -/
def execDup6 (s : State) : StepOutcome := issue infoDup6 (dupEffect 6) s

/-- DUP7 (R177). -/
def execDup7 (s : State) : StepOutcome := issue infoDup7 (dupEffect 7) s

/-- DUP8 (R177). -/
def execDup8 (s : State) : StepOutcome := issue infoDup8 (dupEffect 8) s

/-- DUP9 (R177). -/
def execDup9 (s : State) : StepOutcome := issue infoDup9 (dupEffect 9) s

/-- DUP10 (R177). -/
def execDup10 (s : State) : StepOutcome := issue infoDup10 (dupEffect 10) s

/-- DUP11 (R177). -/
def execDup11 (s : State) : StepOutcome := issue infoDup11 (dupEffect 11) s

/-- DUP12 (R177). -/
def execDup12 (s : State) : StepOutcome := issue infoDup12 (dupEffect 12) s

/-- DUP13 (R177). -/
def execDup13 (s : State) : StepOutcome := issue infoDup13 (dupEffect 13) s

/-- DUP14 (R177). -/
def execDup14 (s : State) : StepOutcome := issue infoDup14 (dupEffect 14) s

/-- DUP15 (R177). -/
def execDup15 (s : State) : StepOutcome := issue infoDup15 (dupEffect 15) s

/-- DUP16 (R177). -/
def execDup16 (s : State) : StepOutcome := issue infoDup16 (dupEffect 16) s

/-- SWAP1 (R178). -/
def execSwap1 (s : State) : StepOutcome := issue infoSwap1 (swapEffect 1) s

/-- SWAP2 (R178). -/
def execSwap2 (s : State) : StepOutcome := issue infoSwap2 (swapEffect 2) s

/-- SWAP3 (R178). -/
def execSwap3 (s : State) : StepOutcome := issue infoSwap3 (swapEffect 3) s

/-- SWAP4 (R178). -/
def execSwap4 (s : State) : StepOutcome := issue infoSwap4 (swapEffect 4) s

/-- SWAP5 (R178). -/
def execSwap5 (s : State) : StepOutcome := issue infoSwap5 (swapEffect 5) s

/-- SWAP6 (R178). -/
def execSwap6 (s : State) : StepOutcome := issue infoSwap6 (swapEffect 6) s

/-- SWAP7 (R178). -/
def execSwap7 (s : State) : StepOutcome := issue infoSwap7 (swapEffect 7) s

/-- SWAP8 (R178). -/
def execSwap8 (s : State) : StepOutcome := issue infoSwap8 (swapEffect 8) s

/-- SWAP9 (R178). -/
def execSwap9 (s : State) : StepOutcome := issue infoSwap9 (swapEffect 9) s

/-- SWAP10 (R178). -/
def execSwap10 (s : State) : StepOutcome := issue infoSwap10 (swapEffect 10) s

/-- SWAP11 (R178). -/
def execSwap11 (s : State) : StepOutcome := issue infoSwap11 (swapEffect 11) s

/-- SWAP12 (R178). -/
def execSwap12 (s : State) : StepOutcome := issue infoSwap12 (swapEffect 12) s

/-- SWAP13 (R178). -/
def execSwap13 (s : State) : StepOutcome := issue infoSwap13 (swapEffect 13) s

/-- SWAP14 (R178). -/
def execSwap14 (s : State) : StepOutcome := issue infoSwap14 (swapEffect 14) s

/-- SWAP15 (R178). -/
def execSwap15 (s : State) : StepOutcome := issue infoSwap15 (swapEffect 15) s

/-- SWAP16 (R178). -/
def execSwap16 (s : State) : StepOutcome := issue infoSwap16 (swapEffect 16) s

end Sys2Proof.Machine
end

