-- ==== Sys2Proof/Machine/HostWrite.lean ====
section
/-!
DEFINITION. The writes of the host at its port, by register number and by array (10_state.md R38, R39): at a handoff to
what the spec gives access `HS`, and before reset to what it gives access `CFG`.
-/

namespace Sys2Proof.Machine

/-- What the host is making of the state at a handoff: the elements of access `HS` (R38), the trace, and the offsets of
memory written. An entry of the stack that a write of `SP` brought into being holds no word until the host writes
one (log 23). -/
structure HostDraft where
  halt : Halt
  ext : Bool
  pc : Nat
  stack : List (Option Word)
  mem : Memory
  msize : Nat
  trace : List TraceEvent
  written : List Nat
  deriving DecidableEq, Repr

/-- The draft the host begins with. -/
def State.draft (s : State) : HostDraft :=
  { halt := s.halt, ext := s.ext, pc := s.pc, stack := s.stack.map some, mem := s.mem, msize := s.msize, trace := s.trace
    written := [] }

/-- The stack after `SP` is written: entries are removed from the top, or come into being there (R26). -/
def resizeStack (stack : List (Option Word)) (n : Nat) : List (Option Word) :=
  List.replicate (n - stack.length) none ++ stack.drop (stack.length - n)

/-- The host writes a register by its number (R38): `HALT`, `PC`, `SP`, `MSIZE`, each with a legal value only. None for the
other registers, which are read-only, fixed at launch, or hardwired. -/
def HostDraft.writeReg (s : State) (d : HostDraft) (n v : Nat) : Option HostDraft :=
  match n with
  | 0 => if v < 2 ^ 8 then (Halt.ofRegister (BitVec.ofNat 8 v)).map fun h => { d with halt := h.1, ext := h.2 } else none
  | 1 => if v < 2 ^ 32 then some { d with pc := v } else none
  | 2 => if v ≤ s.stackLimit then some { d with stack := resizeStack d.stack v } else none
  | 3 => if v % 32 = 0 ∧ v ≤ s.memLimit then some { d with msize := v } else none
  | _ => none

/-- One write of the host at a handoff, allowed only while `ext = 1` (R38). The code memory is not writable then
(70_reset_and_hazards.md R350). -/
def HostDraft.write (s : State) (d : HostDraft) (w : HostWrite) : Option HostDraft :=
  if d.ext = false then none
  else
    match w with
    | .reg n v => d.writeReg s n v
    | .stack i x => if i < d.stack.length then some { d with stack := d.stack.set i (some x) } else none
    | .mem a b => if a < s.memLimit then some { d with mem := d.mem.write a b, written := a :: d.written } else none
    | .code _ _ => none
    | .event ev => some { d with trace := d.trace ++ [ev] }

/-- The writes of one action, in their order. -/
def HostDraft.writeAll (s : State) (d : HostDraft) : List HostWrite → Option HostDraft
  | [] => some d
  | w :: ws =>
    match d.write s w with
    | some d' => HostDraft.writeAll s d' ws
    | none => none

/-- The items of a list, when each of them is there. -/
def allThere {α : Type} : List (Option α) → Option (List α)
  | [] => some []
  | none :: _ => none
  | some x :: rest => (allThere rest).map fun xs => x :: xs

/-- The state that a draft is, with the words of its stack. -/
def State.ofDraft (s : State) (d : HostDraft) (words : List Word) : State :=
  { s with
    halt := d.halt
    ext := d.ext
    pc := d.pc
    stack := words
    mem := d.mem
    msize := d.msize
    trace := d.trace }

/-- What the host is loading before reset: the bytes of `CODE` written so far, `CODE_LEN`, `ACTIVE` and the options. -/
structure LoadDraft where
  code : List (Option Byte)
  len : Nat
  cfg : LaunchConfig
  deriving DecidableEq, Repr

/-- The load begins with the configuration in place. -/
def LaunchConfig.draft (c : LaunchConfig) : LoadDraft := { code := c.code.map some, len := c.code.length, cfg := c }

/-- The two options a byte written to `OPTS` sets; bits 7:2 are ignored (R38). -/
def LaunchConfig.withOpts (c : LaunchConfig) (v : BitVec 8) : LaunchConfig :=
  { c with
    signextendOor := if v.getLsbD 0 then .fault else .passthrough
    jumpdestRequired := v.getLsbD 1 }

/-- One write of the host before reset (R38, access `CFG`): `CODELEN`, `ACTIVE`, `OPTS` by number, a byte of the code memory.
None for anything else. -/
def LoadDraft.write (d : LoadDraft) (w : HostWrite) : Option LoadDraft :=
  match w with
  | .reg 5 v => if v ≤ Config.maxCodeLen then some { d with len := v } else none
  | .reg 6 v => if v < 2 ^ 256 then some { d with cfg := { d.cfg with active := BitVec.ofNat 256 v } } else none
  | .reg 9 v => if v < 2 ^ 8 then some { d with cfg := d.cfg.withOpts (BitVec.ofNat 8 v) } else none
  | .code i b =>
    if i < Config.maxCodeLen then
      some { d with code := (d.code ++ List.replicate (i + 1 - d.code.length) none).set i (some b) }
    else none
  | _ => none

/-- The writes of one load, in their order, which may be any (R342). -/
def LoadDraft.writeAll (d : LoadDraft) : List HostWrite → Option LoadDraft
  | [] => some d
  | w :: ws =>
    match d.write w with
    | some d' => LoadDraft.writeAll d' ws
    | none => none

/-- The configuration loaded by a list of writes over another. None when a write is not allowed, or a byte below `CODE_LEN` is
not loaded (U3). Log 23. -/
def LaunchConfig.load (c : LaunchConfig) (ws : List HostWrite) : Option LaunchConfig :=
  match c.draft.writeAll ws with
  | none => none
  | some d =>
    if d.len ≤ d.code.length then (allThere (d.code.take d.len)).map fun code => { d.cfg with code := code } else none

end Sys2Proof.Machine
end

