-- ==== Sys2Proof/Machine/HostPort.lean ====
section
/-!
DEFINITION. What the host does to the block: the handoff (46_external_opcodes.md R210), reset and launch
(70_reset_and_hazards.md R340 to R342), requests at the ALU port (30_encoding.md R82, 40_alu_arithmetic.md R100, R114), and
the host's view of the registers, the arrays and the trace (10_state.md R23, R38; 70_reset_and_hazards.md R350).
-/

namespace Sys2Proof.Machine

/-- Is a range of memory one that `Touch` accepts (R59)? -/
def inMemory (memLimit : Nat) (r : Nat × Nat) : Bool := decide (r.2 = 0) || decide (r.1 + r.2 ≤ memLimit)

/-- `msize` after `Touch` of each of a list of accepted ranges (R59). -/
def touchAll (memLimit msize : Nat) : List (Nat × Nat) → Nat
  | [] => msize
  | r :: rs =>
    match touch memLimit msize r.1 r.2 with
    | .ok m => touchAll memLimit m rs
    | .error _ => touchAll memLimit msize rs

/-- The memory after a list of bytes is written, in the order of the list. -/
def writeCells (m : Memory) : List Host.Cell → Memory
  | [] => m
  | c :: cs => writeCells (m.write c.1 c.2) cs

/-- The ranges the host reads or writes when it completes an instruction. -/
def hostRanges (touched : List (Nat × Nat)) (written : List Host.Cell) : List (Nat × Nat) :=
  touched ++ written.map fun c => (c.1, 1)

/-- The record of the instruction at `pc`, if it is of class EXT: the one the block handed off (R31). -/
def State.handedOff (s : State) : Option OpInfo :=
  match lookupByValue (s.codeRead s.pc) with
  | some e => if e.unitClass = .ext then some e else none
  | none => none

/-- R210 path 1 is open to an opcode: every one of class EXT but SELFDESTRUCT, whose normal outcome is the halt path
(R245). -/
def completable (e : OpInfo) : Bool := decide (e.value ≠ infoSelfdestruct.value)

/-- R210 path 1 is allowed: the opcode is one that completes, the operands are there, exactly `e.pushes` words are pushed
and find room, and every range lies in the memory. -/
def State.mayComplete (s : State) (e : OpInfo) (pushed : List Word) (ranges : List (Nat × Nat)) : Bool :=
  completable e && decide (e.pops ≤ s.sp) && decide (pushed.length = e.pushes) &&
    decide (s.sp - e.pops + e.pushes ≤ s.stackLimit) && ranges.all (inMemory s.memLimit)

/-- R210 path 1: the host completes the instruction. -/
def State.hostComplete (s : State) (e : OpInfo) (pushed : List Word) (touched : List (Nat × Nat))
    (written : List Host.Cell) : State :=
  { s with
    stack := pushed ++ s.stack.drop e.pops
    mem := writeCells s.mem written
    msize := touchAll s.memLimit s.msize (hostRanges touched written)
    pc := s.pc + 1
    ext := false
    trace := s.trace ++ [{ pc := s.pc, opcode := e.value, stack := pushed ++ s.stack.drop e.pops }] }

/-- R210 path 2 is allowed: `Halted(Normal)` for SELFDESTRUCT (R245), or an exception of any kind (U9). Log 8. -/
def mayHalt (e : OpInfo) (outcome : Halt) : Bool :=
  match outcome with
  | .normal => decide (e.value = infoSelfdestruct.value)
  | .exception _ => true
  | .running => false
  | .revert => false

/-- A state that the host leaves by R210 path 1: `e.pops` words removed and `e.pushes` words pushed, `msize` a multiple of
32, never lowered, that covers the offsets written, `pc` one further, the trace event appended, `ext` cleared. -/
def State.completesAs (s : State) (e : OpInfo) (written : List Nat) (t : State) : Bool :=
  completable e && decide (e.pops ≤ s.sp) && decide (t.sp = s.sp - e.pops + e.pushes) && decide (t.sp ≤ s.stackLimit) &&
    decide (t.stack.drop e.pushes = s.stack.drop e.pops) && decide (t.msize % Config.wordBytes = 0) &&
    decide (s.msize ≤ t.msize) && decide (t.msize ≤ s.memLimit) && written.all (fun a => decide (a < t.msize)) &&
    decide (t.pc = s.pc + 1) && decide (t.halt = .running) && !t.ext &&
    decide (t.trace = s.trace ++ [{ pc := s.pc, opcode := e.value, stack := t.stack }])

/-- A state that the host leaves by R210 path 2: nothing but `halt` and `ext` is written. -/
def State.haltsAs (s : State) (e : OpInfo) (t : State) : Bool :=
  mayHalt e t.halt && decide (t = { s with halt := t.halt, ext := false })

/-- The host's action on the instruction that was handed off, as writes at its port: they are made as one atomic action,
and what they leave must be what one of the two paths of R210 leaves. -/
def State.hostWrites (s : State) (e : OpInfo) (ws : List HostWrite) : Option State :=
  match s.draft.writeAll s ws with
  | none => none
  | some d =>
    match allThere d.stack with
    | none => none
    | some words =>
      let t := s.ofDraft d words
      if s.completesAs e d.written t || s.haltsAs e t then some t else none

/-- The host's action on the instruction that was handed off; none when R210 allows no such action. -/
def State.hostAct (s : State) (e : OpInfo) (act : HostAction) : Option State :=
  match act with
  | .complete pushed touched written =>
    if s.mayComplete e pushed (hostRanges touched written) then some (s.hostComplete e pushed touched written) else none
  | .halt outcome => if mayHalt e outcome then some { s with halt := outcome, ext := false } else none
  | .writes ws => s.hostWrites e ws

/-- What follows at `ext = 1`: the host's next action (R210), or, while it gives none, the refusal of R211. -/
def hostStep (s : State) : StepOutcome :=
  match s.host.actions with
  | [] => .refused (.handedOff s.pc (s.codeRead s.pc))
  | act :: later =>
    match s.handedOff with
    | none => .refused .hostProtocol
    | some e =>
      match State.hostAct { s with host := { s.host with actions := later } } e act with
      | some t => .next t
      | none => .refused .hostProtocol

/-- The legal range of a configuration (R7, R8, R342). -/
def LaunchConfig.inRange (c : LaunchConfig) : Bool := decide (c.code.length ≤ Config.maxCodeLen)

/-- The effect of reset (R340): every element of kind `state` takes its reset value, the configuration and the hardwired
limits stay. -/
def State.afterReset (s : State) : State :=
  { s with pc := 0, stack := [], mem := [], msize := 0, halt := .running, ret := [], ext := false, trace := [] }

/-- The configuration of the run that a reset begins: the one in place, or the one loaded, with the writes of the host; none
when it is not wholly loaded (U3) or out of its legal range (U8). -/
def ResetRequest.config (r : ResetRequest) (inPlace : LaunchConfig) : Option LaunchConfig :=
  ((r.load.getD inPlace).load r.writes).filter LaunchConfig.inRange

/-- The host gives reset, after it loaded a configuration if the request has one (R342). -/
def resetStep (r : ResetRequest) (s : State) : StepOutcome :=
  match r.config s.cfg with
  | some cfg => .next { s.afterReset with cfg := cfg, host := { s.host with reset := none, meter := r.meter } }
  | none => .refused .badConfiguration

/-- The function of the port that a request selects and that is an instruction of the opcode table (R82). -/
def PortRequest.instr : PortRequest → Option Instr
  | .select fn => decodeSelect fn
  | .load _ => none

/-- The answer of the port to any other request: the selected function of the operand inputs (R114), or the word
constructed from the bytes given (R100). -/
def portStep (r : PortRequest) (s : State) : StepOutcome :=
  match r with
  | .select fn => .next (s.answerPort (alu fn s.host.a s.host.b s.host.c))
  | .load d => .next (s.answerPort (wordConstruct d))

/-- The host may read the state: the run has ended or the block waits at a handoff (R23, R38). -/
def State.hostMayRead (s : State) : Bool := decide (s.halt ≠ .running) || s.ext

/-- The register `OPTS` (R38): bit 0 `SIGNEXTEND_OOR`, bit 1 `JUMPDEST_REQUIRED`, the other bits read 0. -/
def LaunchConfig.opts (c : LaunchConfig) : BitVec 8 :=
  (0 : BitVec 6) ++ BitVec.ofBool c.jumpdestRequired ++ BitVec.ofBool (decide (c.signextendOor = .fault))

/-- The width of a register by its number (R38). -/
def hostRegWidth (n : Nat) : Option Nat :=
  ([8, 32, 16, 32, 32, 32, 256, 16, 32, 8] : List Nat)[n]?

/-- The contents of a register by its number (R38). -/
def State.hostReg (s : State) (n : Nat) : Option Nat :=
  ([ s.haltRegister.toNat, s.pc, s.sp, s.msize, s.ret.length, s.cfg.code.length, s.cfg.active.toNat, s.stackLimit
   , s.memLimit, s.cfg.opts.toNat ] : List Nat)[n]?

/-- The registers of access `RO` (R38): 0 to 4, and the hardwired limits 7 and 8. -/
def hostRegGated (n : Nat) : Bool := decide (n < 5) || decide (n = 7) || decide (n = 8)

/-- The host reads a register (R38): one of access `RO` when the host may read the state, the configuration (5, 6, 9, access
`CFG`) at any time; a register's width bounds what is read. Log 18. -/
def State.hostRead (s : State) (n : Nat) : Option Nat :=
  if hostRegGated n && !s.hostMayRead then none
  else
    match s.hostReg n, hostRegWidth n with
    | some v, some w => some (v % 2 ^ w)
    | _, _ => none

/-- The host reads `x[i]` (R38). -/
def State.hostReadStack (s : State) (i : Nat) : Option Word := if s.hostMayRead then s.peek i else none

/-- The host reads a byte of the data memory (R38). -/
def State.hostReadMem (s : State) (a : Nat) : Option Byte :=
  if s.hostMayRead && decide (a < s.memLimit) then some (s.mem.read a) else none

/-- The host reads a byte of the output buffer `RET` (R38). -/
def State.hostReadRet (s : State) (i : Nat) : Option Byte := if s.hostMayRead then s.ret[i]? else none

/-- The host reads the trace (R23, 70_reset_and_hazards.md R350). -/
def State.hostReadTrace (s : State) : Option (List TraceEvent) := if s.hostMayRead then some s.trace else none

/-- The host reads a byte of the code memory (R38). -/
def State.hostReadCode (s : State) (i : Nat) : Option Byte := s.cfg.code[i]?

end Sys2Proof.Machine
end

