-- ==== Sys2Proof/Machine/Sequencer.lean ====
section
/-!
DEFINITION. The step of the dispatch sequencer (44_seq_stack_control.md R170), a request at the ALU port, and the placing
of an instruction where the next step runs it.
-/

namespace Sys2Proof.Machine

/-- A step of the dispatch sequencer (R170): fetch, lookup, and then the instruction's meaning, which holds steps 3 to 8. An
unassigned byte raises `InvalidInstruction` (R304). -/
def sequencerStep (s : State) : StepOutcome :=
  match decode (s.codeFrom s.pc) with
  | .instr i => exec i s
  | .unassigned _ => .next (s.raise .invalidInstruction)

/-- A request at the ALU port: a function of the opcode table that has no opcode runs as that instruction, any other
request is answered as the port answers it. -/
def portRequestStep (r : PortRequest) (s : State) : StepOutcome :=
  match r.instr with
  | some i => exec i s
  | none => portStep r s

/-- The step of the block itself: the sequencer has a step if and only if `halt = Running` and `ext = 0` (R20); at a handoff
the host acts; a halted block has no step (R324). -/
def blockStep (s : State) : StepOutcome :=
  match s.halt with
  | .running => if s.ext then hostStep s else sequencerStep s
  | _ => .fault .halted

/-- The state with an instruction of the opcode table placed where the next step runs it: its bytes in the code from `pc`
on, bytes above `nbits` zero; or, for a function of the ALU port, its select at the port (log 4, log 10). -/
def State.placeTableWord (s : State) (nbits w : Nat) : State :=
  match decode (tableBytes nbits w), decodeTableWord nbits w with
  | .unassigned v, some _ => { s with host := { s.host with request := some (.select v) } }
  | _, _ => { s with cfg := { s.cfg with code := placeBytes s.cfg.code s.pc (takePadded 33 (tableBytes nbits w)) } }

end Sys2Proof.Machine
end

