-- ==== Sys2Proof/Machine/Step.lean ====
section
/-!
DEFINITION. One step of the machine, and the placing of an instruction where the next step runs it.
-/

namespace Sys2Proof.Machine

/-- One step of the machine. The host's reset comes first (R340), then a request at the ALU port (log 9, log 10), then the
step of the block (R20). -/
def step (s : State) : Host.Outcome State Fault Refusal :=
  match s.host.reset, s.host.request with
  | some r, _ => resetStep r s
  | none, some q => portRequestStep q s
  | none, none => blockStep s

/-- The state with an instruction of the opcode table placed where the next step runs it. -/
def State.withFetchWord (s : State) (nbits w : Nat) : State := s.placeTableWord nbits w

end Sys2Proof.Machine
end

