-- ==== Sys2Proof/Machine/TestBench.lean ====
section
/-!
DEFINITION. The test-bench functions of the spec, which are no ports: the text conversions (40_alu_arithmetic.md R117), the
integer conversions (00_scope.md R14) and the assembler line of an instruction (30_encoding.md R80).
-/

namespace Sys2Proof.Machine

/-- `toUnsignedInteger` (R14). -/
def toUnsignedInteger (w : Word) : Int := uval w

/-- `toSignedInteger` (R14). -/
def toSignedInteger (w : Word) : Int := sval w

/-- The hexadecimal digit of a number below 16, its letters from `letterA` on. -/
def hexDigit (letterA : Nat) (n : Nat) : Char := Char.ofNat (if n < 10 then 0x30 + n else letterA + (n - 10))

/-- Two hexadecimal digits for each byte. -/
def hexDigits (letterA : Nat) : List Byte → List Char
  | [] => []
  | b :: bs => hexDigit letterA (b.toNat / 16) :: hexDigit letterA (b.toNat % 16) :: hexDigits letterA bs

/-- `toCanonicalHex` (R117): 64 lower-case digits, no leading `0x`. -/
def toCanonicalHex (w : Word) : String := String.ofList (hexDigits 0x61 (bytes32 w))

/-- A byte sequence without its leading 0x00 bytes. -/
def stripZeroBytes : List Byte → List Byte
  | [] => []
  | b :: bs => if b = 0 then stripZeroBytes bs else b :: bs

/-- The digits of the compact form. Which candidate stands for zero, and whether a leading zero digit is dropped, are free
values (U6, log 13). -/
def compactDigits (w : Word) : List Char :=
  if w = 0 then List.replicate Config.compactZeroForm.val (Char.ofNat 0x30)
  else
    let ds := hexDigits 0x41 (stripZeroBytes (bytes32 w))
    if ds.head? == some (Char.ofNat 0x30) && Config.compactDropsZeroDigit w then ds.tail else ds

/-- `toCompactHex` (R117): upper-case digits after `0x`, leading zero bytes stripped. -/
def toCompactHex (w : Word) : String := String.ofList (Char.ofNat 0x30 :: Char.ofNat 0x78 :: compactDigits w)

/-- The line of an instruction in the assembler of R80: the mnemonic, and for PUSHn a space and the immediate as `0x` and
exactly `2n` digits. None for the functions of the port, which are not in R76. -/
def assemblerLine (i : Instr) : Option String :=
  match i.info with
  | none => none
  | some e =>
    if i.immLen = 0 then some e.mnemonic
    else some (e.mnemonic ++ " 0x" ++ String.ofList (hexDigits 0x41 (wordBytesBE i.immLen i.imm)))

end Sys2Proof.Machine
end

