-- ==== Sys2Proof/Safety.lean ====
section
/-!
DEFINITION. The terms the claims use: when the block has a step, when an opcode passes the checks of a step, what an
instruction leaves, and the invariant of the machine.
-/

namespace Sys2Proof.Machine

/-- The sequencer has a step (R20), and the host asks for neither a reset nor an answer of the ALU port. -/
abbrev State.Enabled (s : State) : Prop :=
  s.host.reset = none ∧ s.host.request = none ∧ s.halt = .running ∧ s.ext = false

/-- An opcode passes steps 3 to 6 of R170: it is activated, its operands are there, its result finds room, and the meter
answers `ok`. -/
abbrev State.Ready (s : State) (v : Byte) (pops pushes : Nat) : Prop :=
  s.cfg.active.getLsbD v.toNat = true ∧ pops ≤ s.stack.length ∧
    s.stack.length - pops + pushes ≤ s.stackLimit ∧ s.host.meter ≠ some 0

/-- What an instruction leaves that only writes the stack and `pc`: the new stack and `pc`, its trace event (R172), and one
answer of the meter used. Every other part of the state is as before. -/
def State.done (s : State) (v : Byte) (stack : List Word) (pc : Nat) : State :=
  { s with
    stack := stack
    pc := pc
    trace := s.trace ++ [{ pc := s.pc, opcode := v, stack := stack }]
    host := s.host.tick }

/-- `msize` after an accepted access to `n` bytes at `addr` (R59). -/
def grownTo (msize addr n : Nat) : Nat := if n = 0 then msize else max msize (32 * ((addr + n + 31) / 32))

/-- The rule of an instruction of class ALU with one operand: its encoding, its function at the port, and its effect as an
instruction (R171). -/
def UnaryRule (i : Instr) (v : Byte) (f : Word → Word) : Prop :=
  encode i = [v] ∧ (∀ a b c, alu v a b c = .result (f a)) ∧
    ∀ (s : State) (a : Word) (rest : List Word), s.stack = a :: rest → s.Ready v 1 1 →
      exec i s = .next (s.done v (f a :: rest) (s.pc + 1))

/-- The rule of an instruction of class ALU with two operands, `a` on top of the stack. -/
def BinaryRule (i : Instr) (v : Byte) (f : Word → Word → Word) : Prop :=
  encode i = [v] ∧ (∀ a b c, alu v a b c = .result (f a b)) ∧
    ∀ (s : State) (a b : Word) (rest : List Word), s.stack = a :: b :: rest → s.Ready v 2 1 →
      exec i s = .next (s.done v (f a b :: rest) (s.pc + 1))

/-- The rule of an instruction of class ALU with three operands. -/
def TernaryRule (i : Instr) (v : Byte) (f : Word → Word → Word → Word) : Prop :=
  encode i = [v] ∧ (∀ a b c, alu v a b c = .result (f a b c)) ∧
    ∀ (s : State) (a b c : Word) (rest : List Word), s.stack = a :: b :: c :: rest → s.Ready v 3 1 →
      exec i s = .next (s.done v (f a b c :: rest) (s.pc + 1))

/-- The rule of a function of the port that has no opcode: its select, its function, and what the request leaves. -/
def PortRule (i : Instr) (v : Byte) (f : Word → Word → Word) : Prop :=
  decodeSelect v = some i ∧ decode [v] = .unassigned v ∧ (∀ a b c, alu v a b c = .result (f a b)) ∧
    ∀ s : State, exec i s =
      .next { s with host := { s.host with request := none, answer := some (.result (f s.host.a s.host.b)) } }

/-- The configuration and the limits are in their legal ranges (R7, R8, R38). -/
abbrev State.ConfigInv (s : State) : Prop :=
  1 ≤ s.stackLimit ∧ s.stackLimit < 2 ^ 16 ∧ s.memLimit % 32 = 0 ∧ s.memLimit < 2 ^ 32 ∧
    s.cfg.code.length ≤ 2 ^ 32 - 34

/-- The invariant of the machine. The stack is within its bound (R26); `pc` is at most 32 past the end of the code (R8); the
memory is in its canonical form, no byte at or past `msize` is listed (R28), and `msize` is a multiple of 32 within
`MEM_LIMIT` (R24); `ext = 1` only while running at an EXT opcode whose operands are on the stack (R31, R39); `RET` is empty until
RETURN or REVERT ends the run (R30), and holds bytes of the memory only (R183, R184). -/
abbrev State.Inv (s : State) : Prop :=
  s.ConfigInv ∧
  s.stack.length ≤ s.stackLimit ∧
  s.pc ≤ s.cfg.code.length + 32 ∧
  s.mem.wf = true ∧
  (∀ c ∈ s.mem, c.1 < s.msize) ∧
  (s.msize % 32 = 0 ∧ s.msize ≤ s.memLimit) ∧
  (s.ext = true → s.halt = .running ∧ (s.handedOff.any fun e => decide (e.pops ≤ s.sp)) = true) ∧
  (s.ret ≠ [] → s.halt = .normal ∨ s.halt = .revert) ∧
  s.ret.length ≤ s.memLimit

end Sys2Proof.Machine
end

