-- ==== Sys2Proof/Certificates/Slice0/Obligations.lean ====
section
/-!
DEFINITION. The statements for the provers. Each docstring names the rule of the spec it formalises, or, where a statement
rests on the model's own choice, the log entry.
-/

open Sys2Proof Sys2Proof.Machine

/-- R101, R102, R103: ADD, MUL and SUB over the integers, narrowed modulo 2^256, as functions of the port and as instructions. -/
def Obligations.AddMulSubWrapModTwoPow256 : Prop :=
  BinaryRule .add 0x01 (fun a b => BitVec.ofNat 256 (a.toNat + b.toNat)) ∧
  BinaryRule .mul 0x02 (fun a b => BitVec.ofNat 256 (a.toNat * b.toNat)) ∧
  BinaryRule .sub 0x03 (fun a b => BitVec.ofInt 256 ((a.toNat : Int) - (b.toNat : Int)))

/-- R104, R106: DIV and MOD, with the zero word for a zero divisor. -/
def Obligations.DivModUnsignedZeroDivisorIsZero : Prop :=
  BinaryRule .div 0x04 (fun a b => if b.toNat = 0 then 0 else BitVec.ofNat 256 (a.toNat / b.toNat)) ∧
  BinaryRule .mod 0x06 (fun a b => if b.toNat = 0 then 0 else BitVec.ofNat 256 (a.toNat % b.toNat))

/-- R105, R107: SDIV and SMOD read two's complement operands; the quotient is truncated toward zero and the remainder has the sign of the dividend. -/
def Obligations.SdivSmodSignedTruncated : Prop :=
  BinaryRule .sdiv 0x05 (fun a b => if b.toNat = 0 then 0 else BitVec.ofInt 256 (a.toInt.sign * b.toInt.sign * ((a.toInt.natAbs / b.toInt.natAbs : Nat) : Int))) ∧
  BinaryRule .smod 0x07 (fun a b => if b.toNat = 0 then 0 else BitVec.ofInt 256 (a.toInt.sign * ((a.toInt.natAbs % b.toInt.natAbs : Nat) : Int))) ∧
  (∀ c, alu 0x05 (BitVec.intMin 256) (BitVec.allOnes 256) c = .result (BitVec.intMin 256))

/-- R108, R109: ADDMOD and MULMOD reduce the unbounded sum and product; the zero word for a zero modulus. -/
def Obligations.AddmodMulmodUnboundedIntermediate : Prop :=
  TernaryRule .addmod 0x08 (fun a b c => if c.toNat = 0 then 0 else BitVec.ofNat 256 ((a.toNat + b.toNat) % c.toNat)) ∧
  TernaryRule .mulmod 0x09 (fun a b c => if c.toNat = 0 then 0 else BitVec.ofNat 256 ((a.toNat * b.toNat) % c.toNat))

/-- R110: EXP is the power modulo 2^256, whatever the exponent; the model computes it by square-and-multiply. -/
def Obligations.ExpIsPowerModTwoPow256 : Prop :=
  BinaryRule .exp 0x0a (fun a b => BitVec.ofNat 256 (a.toNat ^ b.toNat))

/-- R111, R112: SIGNEXTEND at the port (an index above 31 is `RangeError`) and as an instruction under each value of `SIGNEXTEND_OOR`. -/
def Obligations.SignextendFunctionAndInstruction : Prop :=
  encode .signextend = [0x0b] ∧
  (∀ a b c : Word, 31 < a.toNat → alu 0x0b a b c = .error .rangeError) ∧
  (∀ a b c : Word, a.toNat ≤ 31 → ∃ r : Word, alu 0x0b a b c = .result r ∧
    ∀ j, j < 256 → r.getLsbD j = b.getLsbD (min j (8 * a.toNat + 7))) ∧
  (∀ (s : State) (a b : Word) (rest : List Word), s.stack = a :: b :: rest → s.Ready 0x0b 2 1 → a.toNat ≤ 31 →
    ∃ r : Word, (∀ j, j < 256 → r.getLsbD j = b.getLsbD (min j (8 * a.toNat + 7))) ∧
      exec .signextend s = .next (s.done 0x0b (r :: rest) (s.pc + 1))) ∧
  (∀ (s : State) (a b : Word) (rest : List Word), s.stack = a :: b :: rest → s.Ready 0x0b 2 1 → 31 < a.toNat →
    s.cfg.signextendOor = .passthrough → exec .signextend s = .next (s.done 0x0b (b :: rest) (s.pc + 1))) ∧
  (∀ (s : State) (a b : Word) (rest : List Word), s.stack = a :: b :: rest → s.Ready 0x0b 2 1 → 31 < a.toNat →
    s.cfg.signextendOor = .fault → exec .signextend s = .next { s with halt := .exception .rangeError })

/-- R121 to R125: LT, GT unsigned; SLT, SGT two's complement; EQ on all bits; the answer is the word 1 or 0. -/
def Obligations.ComparisonsAnswerOneOrZero : Prop :=
  BinaryRule .lt 0x10 (fun a b => if a.toNat < b.toNat then 1 else 0) ∧
  BinaryRule .gt 0x11 (fun a b => if b.toNat < a.toNat then 1 else 0) ∧
  BinaryRule .slt 0x12 (fun a b => if a.toInt < b.toInt then 1 else 0) ∧
  BinaryRule .sgt 0x13 (fun a b => if b.toInt < a.toInt then 1 else 0) ∧
  BinaryRule .eq 0x14 (fun a b => if a.toNat = b.toNat then 1 else 0)

/-- R126, R131: ISZERO and the bitwise complement. -/
def Obligations.IszeroAndNot : Prop :=
  UnaryRule .iszero 0x15 (fun a => if a.toNat = 0 then 1 else 0) ∧
  UnaryRule .not 0x19 (fun a => BitVec.ofNat 256 (2 ^ 256 - 1 - a.toNat))

/-- R128, R129, R130: AND, OR and XOR bit by bit. -/
def Obligations.BitwiseAndOrXor : Prop :=
  (∃ f, BinaryRule .and 0x16 f ∧ ∀ (a b : Word) (j : Nat), (f a b).getLsbD j = (a.getLsbD j && b.getLsbD j)) ∧
  (∃ f, BinaryRule .or 0x17 f ∧ ∀ (a b : Word) (j : Nat), (f a b).getLsbD j = (a.getLsbD j || b.getLsbD j)) ∧
  (∃ f, BinaryRule .xor 0x18 f ∧ ∀ (a b : Word) (j : Nat), (f a b).getLsbD j = (a.getLsbD j ^^ b.getLsbD j))

/-- R132: BYTE counts from the most significant byte; an index of 32 or more gives 0. -/
def Obligations.ByteSelectsBigIndex : Prop :=
  BinaryRule .byte 0x1a (fun a b => if 32 ≤ a.toNat then 0 else BitVec.ofNat 256 (b.toNat / 2 ^ (8 * (31 - a.toNat)) % 256))

/-- R140, R141, R142: SHL, SHR and SAR by the whole unsigned value of `a`. -/
def Obligations.ShiftsByFullAmount : Prop :=
  BinaryRule .shl 0x1b (fun a b => if 256 ≤ a.toNat then 0 else b <<< a.toNat) ∧
  BinaryRule .shr 0x1c (fun a b => if 256 ≤ a.toNat then 0 else b >>> a.toNat) ∧
  BinaryRule .sar 0x1d (fun a b =>
    if 256 ≤ a.toNat then (if b.msb then BitVec.allOnes 256 else 0) else b.sshiftRight a.toNat)

/-- R113, R127: NEG and ISNEG at the port. That the request and its answer stand in `host` is the model's choice (log 10). -/
def Obligations.NegAndIsnegAtThePort : Prop :=
  PortRule .neg 0xc0 (fun a _ => BitVec.ofInt 256 (-(a.toNat : Int))) ∧
  PortRule .isneg 0xc1 (fun a _ => if a.msb then 1 else 0)

/-- R143, R144: ROL moves bit `i` to bit `(i + m) mod 256`, ROR to `(i - m) mod 256`, with `m = u(a) mod 256`. The request and answer fields are the model's choice (log 10). -/
def Obligations.RotatesAtThePort : Prop :=
  (∃ f, PortRule .rol 0xc2 f ∧
    ∀ (a b : Word) (j : Nat), j < 256 → (f a b).getLsbD ((j + a.toNat) % 256) = b.getLsbD j) ∧
  (∃ f, PortRule .ror 0xc3 f ∧
    ∀ (a b : Word) (j : Nat), j < 256 → (f a b).getLsbD j = b.getLsbD ((j + a.toNat) % 256))

/-- R116, R82: the port answers an error exactly for SIGNEXTEND with an index above 31 (`RangeError`) and for a select that names no function (`InvalidInstruction`); word construction answers `Overflow` exactly for more than 32 bytes. -/
def Obligations.PortErrorsAreTheThreeStated : Prop :=
  (∀ (fn : Byte) (a b c : Word) (k : ErrorKind), alu fn a b c = .error k ↔
    (k = .rangeError ∧ fn = 0x0b ∧ 31 < a.toNat) ∨
    (k = .invalidInstruction ∧ fn ∉ ([0x01, 0x02, 0x03, 0x04, 0x05, 0x06, 0x07, 0x08, 0x09, 0x0a, 0x0b, 0x10, 0x11, 0x12, 0x13, 0x14, 0x15, 0x16, 0x17, 0x18, 0x19, 0x1a, 0x1b, 0x1c, 0x1d, 0xc0, 0xc1, 0xc2, 0xc3] : List Byte))) ∧
  (∀ (d : List Byte) (k : ErrorKind), wordConstruct d = .error k ↔ k = .overflow ∧ 32 < d.length)

/-- R100: the bytes given are the least significant bytes of the word, the others are 0x00. -/
def Obligations.WordConstructionRightAligned : Prop :=
  ∀ d : List Byte,
    (32 < d.length → wordConstruct d = .error .overflow) ∧
    (d.length ≤ 32 → ∃ r : Word, wordConstruct d = .result r ∧
      (∀ j, j < d.length → byteLE r (d.length - 1 - j) = d.getD j 0) ∧
      (∀ k, d.length ≤ k → k < 32 → byteLE r k = 0))

/-- R114: the ALU port is a pure function of its inputs. In the model a request at the port is answered by a step that changes nothing but the port's own fields (log 9, log 10). -/
def Obligations.PortRequestsLeaveTheBlockAlone : Prop :=
  ∀ s : State, s.host.reset = none →
    (∀ fn : Byte, s.host.request = some (.select fn) → step s =
      .next { s with host := { s.host with request := none, answer := some (alu fn s.host.a s.host.b s.host.c) } }) ∧
    (∀ d : List Byte, s.host.request = some (.load d) → step s =
      .next { s with host := { s.host with request := none, answer := some (wordConstruct d) } })

/-- R173: STOP sets `Halted(Normal)`; the stack, the memory, `pc` and `RET` stay. -/
def Obligations.StopHaltsNormally : Prop :=
  encode .stop = [0x00] ∧
  ∀ s : State, s.Ready 0x00 0 0 → exec .stop s =
    .next { s with
      halt := .normal
      trace := s.trace ++ [{ pc := s.pc, opcode := 0x00, stack := s.stack }]
      host := s.host.tick }

/-- R174: a fetch at or past the end of the code is a STOP in every respect. -/
def Obligations.FetchPastTheEndIsStop : Prop :=
  ∀ s : State, s.Enabled → s.cfg.code.length ≤ s.pc → step s = exec .stop s ∧
    (s.cfg.active.getLsbD 0 = false → step s = .next { s with halt := .exception .illegalOperation }) ∧
    (s.Ready 0x00 0 0 → ∃ t, step s = .next t ∧ t.halt = .normal ∧ t.pc = s.pc ∧ t.stack = s.stack ∧
      t.trace = s.trace ++ [{ pc := s.pc, opcode := 0x00, stack := s.stack }])

/-- R183, R184: RETURN and REVERT read the range into `RET` and halt; past `MEM_LIMIT` they raise `OutOfResource` with nothing changed. -/
def Obligations.ReturnAndRevertOutput : Prop :=
  (encode .return_ = [0xf3] ∧ ∀ (s : State) (off size : Word) (rest : List Word), s.stack = off :: size :: rest → s.Ready 0xf3 2 0 →
    (size.toNat = 0 ∨ off.toNat + size.toNat ≤ s.memLimit → exec .return_ s =
      .next { s with
        stack := rest
        msize := grownTo s.msize off.toNat size.toNat
        ret := (List.range size.toNat).map fun j => s.mem.read (off.toNat + j)
        halt := .normal
        trace := s.trace ++ [{ pc := s.pc, opcode := 0xf3, stack := rest }]
        host := s.host.tick }) ∧
    (size.toNat ≠ 0 → s.memLimit < off.toNat + size.toNat →
      exec .return_ s = .next { s with halt := .exception .outOfResource })) ∧
  (encode .revert = [0xfd] ∧ ∀ (s : State) (off size : Word) (rest : List Word), s.stack = off :: size :: rest → s.Ready 0xfd 2 0 →
    (size.toNat = 0 ∨ off.toNat + size.toNat ≤ s.memLimit → exec .revert s =
      .next { s with
        stack := rest
        msize := grownTo s.msize off.toNat size.toNat
        ret := (List.range size.toNat).map fun j => s.mem.read (off.toNat + j)
        halt := .revert
        trace := s.trace ++ [{ pc := s.pc, opcode := 0xfd, stack := rest }]
        host := s.host.tick }) ∧
    (size.toNat ≠ 0 → s.memLimit < off.toNat + size.toNat →
      exec .revert s = .next { s with halt := .exception .outOfResource }))

/-- R175: POP. -/
def Obligations.PopRemovesTheTop : Prop :=
  encode .pop = [0x50] ∧
  ∀ (s : State) (a : Word) (rest : List Word), s.stack = a :: rest → s.Ready 0x50 1 0 →
    exec .pop s = .next (s.done 0x50 rest (s.pc + 1))

/-- R176: PUSHn, for each n from 1 to 32, pushes the word of its immediate and goes `1 + n` bytes on. -/
def Obligations.PushesTheImmediateWord : Prop :=
  ∀ p ∈ ([(.push1, 1), (.push2, 2), (.push3, 3), (.push4, 4), (.push5, 5), (.push6, 6), (.push7, 7), (.push8, 8), (.push9, 9), (.push10, 10), (.push11, 11), (.push12, 12), (.push13, 13), (.push14, 14), (.push15, 15), (.push16, 16), (.push17, 17), (.push18, 18), (.push19, 19), (.push20, 20), (.push21, 21), (.push22, 22), (.push23, 23), (.push24, 24), (.push25, 25), (.push26, 26), (.push27, 27), (.push28, 28), (.push29, 29), (.push30, 30), (.push31, 31), (.push32, 32)] : List ((Word → Instr) × Nat)),
    ∀ (imm : Word) (s : State), s.Ready (BitVec.ofNat 8 (0x5f + p.2)) 0 1 →
      exec (p.1 imm) s = .next (s.done (BitVec.ofNat 8 (0x5f + p.2)) (imm :: s.stack) (s.pc + 1 + p.2))

/-- R176, R73, R69: the bytes after the opcode, big-endian, bytes past the end of the code read as 0x00. -/
def Obligations.PushReadsItsBytesFromTheCode : Prop :=
  ∀ (s : State) (n : Nat), 1 ≤ n → n ≤ 32 → s.Enabled → s.codeRead s.pc = BitVec.ofNat 8 (0x5f + n) →
    s.Ready (BitVec.ofNat 8 (0x5f + n)) 0 1 →
    ∃ w : Word,
      (∀ j, j < n → byteLE w (n - 1 - j) = s.codeRead (s.pc + 1 + j)) ∧
      (∀ k, n ≤ k → k < 32 → byteLE w k = 0) ∧
      step s = .next (s.done (BitVec.ofNat 8 (0x5f + n)) (w :: s.stack) (s.pc + 1 + n))

/-- R177: DUPn, for each n from 1 to 16, pushes a copy of `x[n-1]`. -/
def Obligations.DupCopiesTheEntryAtDepth : Prop :=
  ∀ p ∈ ([(.dup1, 1), (.dup2, 2), (.dup3, 3), (.dup4, 4), (.dup5, 5), (.dup6, 6), (.dup7, 7), (.dup8, 8), (.dup9, 9), (.dup10, 10), (.dup11, 11), (.dup12, 12), (.dup13, 13), (.dup14, 14), (.dup15, 15), (.dup16, 16)] : List (Instr × Nat)),
    encode p.1 = [BitVec.ofNat 8 (0x7f + p.2)] ∧
    ∀ (s : State) (x : Word), s.stack[p.2 - 1]? = some x → s.Ready (BitVec.ofNat 8 (0x7f + p.2)) p.2 (p.2 + 1) →
      exec p.1 s = .next (s.done (BitVec.ofNat 8 (0x7f + p.2)) (x :: s.stack) (s.pc + 1))

/-- R178: SWAPn, for each n from 1 to 16, exchanges `x[0]` and `x[n]`. -/
def Obligations.SwapExchangesTopAndDepth : Prop :=
  ∀ p ∈ ([(.swap1, 1), (.swap2, 2), (.swap3, 3), (.swap4, 4), (.swap5, 5), (.swap6, 6), (.swap7, 7), (.swap8, 8), (.swap9, 9), (.swap10, 10), (.swap11, 11), (.swap12, 12), (.swap13, 13), (.swap14, 14), (.swap15, 15), (.swap16, 16)] : List (Instr × Nat)),
    encode p.1 = [BitVec.ofNat 8 (0x8f + p.2)] ∧
    ∀ (s : State) (x y : Word) (between rest : List Word), between.length = p.2 - 1 →
      s.stack = x :: (between ++ y :: rest) → s.Ready (BitVec.ofNat 8 (0x8f + p.2)) (p.2 + 1) (p.2 + 1) →
      exec p.1 s = .next (s.done (BitVec.ofNat 8 (0x8f + p.2)) (y :: (between ++ x :: rest)) (s.pc + 1))

/-- R179: JUMP. -/
def Obligations.JumpGoesToAValidDestination : Prop :=
  encode .jump = [0x56] ∧
  ∀ (s : State) (t : Word) (rest : List Word), s.stack = t :: rest → s.Ready 0x56 1 0 →
    (t.toNat ∈ jumpDests s.cfg.code s.cfg.jumpdestRequired →
      exec .jump s = .next (s.done 0x56 rest t.toNat)) ∧
    (t.toNat ∉ jumpDests s.cfg.code s.cfg.jumpdestRequired →
      exec .jump s = .next { s with halt := .exception .invalidJump })

/-- R180: JUMPI. -/
def Obligations.JumpiTestsTheCondition : Prop :=
  encode .jumpi = [0x57] ∧
  ∀ (s : State) (t cond : Word) (rest : List Word), s.stack = t :: cond :: rest → s.Ready 0x57 2 0 →
    (cond.toNat = 0 → exec .jumpi s = .next (s.done 0x57 rest (s.pc + 1))) ∧
    (cond.toNat ≠ 0 → t.toNat ∈ jumpDests s.cfg.code s.cfg.jumpdestRequired →
      exec .jumpi s = .next (s.done 0x57 rest t.toNat)) ∧
    (cond.toNat ≠ 0 → t.toNat ∉ jumpDests s.cfg.code s.cfg.jumpdestRequired →
      exec .jumpi s = .next { s with halt := .exception .invalidJump })

/-- R84: the boundaries are offset 0 of a nonempty code and, after each boundary, the offset its instruction's length further, while inside the code; nothing else. -/
def Obligations.BoundariesAreTheLinearSweep : Prop :=
  ∀ code : List Byte,
    (∀ j ∈ boundaries code, j < code.length) ∧
    (0 ∈ boundaries code ↔ code ≠ []) ∧
    (∀ j ∈ boundaries code, j + opcodeLength (code.getD j 0) < code.length →
      j + opcodeLength (code.getD j 0) ∈ boundaries code) ∧
    (∀ j ∈ boundaries code, j = 0 ∨ ∃ k ∈ boundaries code, j = k + opcodeLength (code.getD k 0)) ∧
    (∀ v : Byte, opcodeLength v = if 0x60 ≤ v.toNat ∧ v.toNat ≤ 0x7f then 1 + (v.toNat - 0x5f) else 1)

/-- R35: `JD` is the boundaries that hold 0x5b, or all boundaries when `JUMPDEST_REQUIRED = false`. -/
def Obligations.JumpDestsAreMarkedBoundaries : Prop :=
  ∀ (code : List Byte) (required : Bool) (t : Nat), t ∈ jumpDests code required ↔
    t ∈ boundaries code ∧ (required = true → code.getD t 0 = 0x5b)

/-- R181, R182, R203: PC pushes its own offset, MSIZE the growth mark, JUMPDEST does nothing. -/
def Obligations.PcMsizeAndJumpdest : Prop :=
  (encode .pc = [0x58] ∧ ∀ s : State, s.Ready 0x58 0 1 →
    exec .pc s = .next (s.done 0x58 (BitVec.ofNat 256 s.pc :: s.stack) (s.pc + 1))) ∧
  (encode .msize = [0x59] ∧ ∀ s : State, s.Ready 0x59 0 1 →
    exec .msize s = .next (s.done 0x59 (BitVec.ofNat 256 s.msize :: s.stack) (s.pc + 1))) ∧
  (encode .jumpdest = [0x5b] ∧ ∀ s : State, s.Ready 0x5b 0 0 →
    exec .jumpdest s = .next (s.done 0x5b s.stack (s.pc + 1)))

/-- R200: MLOAD. -/
def Obligations.MloadReadsThirtyTwoBytes : Prop :=
  encode .mload = [0x51] ∧
  ∀ (s : State) (off : Word) (rest : List Word), s.stack = off :: rest → s.Ready 0x51 1 1 →
    (off.toNat + 32 ≤ s.memLimit → ∃ r : Word, (∀ j, j < 32 → byteBE r j = s.mem.read (off.toNat + j)) ∧
      exec .mload s = .next { s.done 0x51 (r :: rest) (s.pc + 1) with msize := grownTo s.msize off.toNat 32 }) ∧
    (s.memLimit < off.toNat + 32 → exec .mload s = .next { s with halt := .exception .outOfResource })

/-- R201: MSTORE. -/
def Obligations.MstoreWritesThirtyTwoBytes : Prop :=
  encode .mstore = [0x52] ∧
  ∀ (s : State) (off val : Word) (rest : List Word), s.mem.wf = true → s.stack = off :: val :: rest → s.Ready 0x52 2 0 →
    (off.toNat + 32 ≤ s.memLimit → ∃ m : Memory,
      (∀ j, j < 32 → m.read (off.toNat + j) = byteBE val j) ∧
      (∀ a, a < off.toNat ∨ off.toNat + 32 ≤ a → m.read a = s.mem.read a) ∧
      exec .mstore s = .next { s.done 0x52 rest (s.pc + 1) with mem := m, msize := grownTo s.msize off.toNat 32 }) ∧
    (s.memLimit < off.toNat + 32 → exec .mstore s = .next { s with halt := .exception .outOfResource })

/-- R202: MSTORE8. -/
def Obligations.MstoreEightWritesTheLowByte : Prop :=
  encode .mstore8 = [0x53] ∧
  ∀ (s : State) (off val : Word) (rest : List Word), s.mem.wf = true → s.stack = off :: val :: rest → s.Ready 0x53 2 0 →
    (off.toNat + 1 ≤ s.memLimit → ∃ m : Memory,
      (∀ j, j < 1 → m.read (off.toNat + j) = byteLE val 0) ∧
      (∀ a, a < off.toNat ∨ off.toNat + 1 ≤ a → m.read a = s.mem.read a) ∧
      exec .mstore8 s = .next { s.done 0x53 rest (s.pc + 1) with mem := m, msize := grownTo s.msize off.toNat 1 }) ∧
    (s.memLimit < off.toNat + 1 → exec .mstore8 s = .next { s with halt := .exception .outOfResource })

/-- R201, R64: MSTORE and then MLOAD at the same offset returns the stored word. -/
def Obligations.LoadAfterStoreReturnsTheWord : Prop :=
  ∀ (s t u : State) (off val : Word) (rest : List Word), s.mem.wf = true →
    s.stack = off :: val :: rest → exec .mstore s = .next t →
    t.halt = s.halt → s.halt = .running → exec .mload { t with stack := off :: t.stack } = .next u → u.halt = .running →
    u.stack = val :: rest ∧ ∀ a, u.mem.read a = t.mem.read a

/-- R58, R64: a write of a byte is read back, every other byte is as before, and equal memories are equal data. The canonical form is the model's choice of representation (log 19). -/
def Obligations.MemoryReadAfterWrite : Prop :=
  (∀ (m : Memory) (a : Nat) (b : Byte), m.wf = true → (m.write a b).wf = true ∧
    ∀ x, (m.write a b).read x = if x = a then b else m.read x) ∧
  (∀ m n : Memory, m.wf = true → n.wf = true → (∀ a, m.read a = n.read a) → m = n)

/-- R210: an instruction of class EXT that passes the checks sets `ext` and changes nothing else: `pc` at its opcode byte, its operands on the stack, no trace event. The list is that of R76. -/
def Obligations.ExtInstructionsHandOff : Prop :=
  ∀ p ∈ ([ (.sha3, 0x20, 2, 1), (.address, 0x30, 0, 1), (.balance, 0x31, 1, 1), (.origin, 0x32, 0, 1)
    , (.caller, 0x33, 0, 1), (.callvalue, 0x34, 0, 1), (.calldataload, 0x35, 1, 1), (.calldatasize, 0x36, 0, 1)
    , (.calldatacopy, 0x37, 3, 0), (.codesize, 0x38, 0, 1), (.codecopy, 0x39, 3, 0), (.gasprice, 0x3a, 0, 1)
    , (.extcodesize, 0x3b, 1, 1), (.extcodecopy, 0x3c, 4, 0), (.returndatasize, 0x3d, 0, 1), (.returndatacopy, 0x3e, 3, 0)
    , (.extcodehash, 0x3f, 1, 1), (.blockhash, 0x40, 1, 1), (.coinbase, 0x41, 0, 1), (.timestamp, 0x42, 0, 1)
    , (.number, 0x43, 0, 1), (.difficulty, 0x44, 0, 1), (.gaslimit, 0x45, 0, 1), (.sload, 0x54, 1, 1)
    , (.sstore, 0x55, 2, 0), (.gas, 0x5a, 0, 1), (.log0, 0xa0, 2, 0), (.log1, 0xa1, 3, 0)
    , (.log2, 0xa2, 4, 0), (.log3, 0xa3, 5, 0), (.log4, 0xa4, 6, 0), (.create, 0xf0, 3, 1)
    , (.call, 0xf1, 7, 1), (.callcode, 0xf2, 7, 1), (.delegatecall, 0xf4, 6, 1), (.create2, 0xf5, 4, 1)
    , (.staticcall, 0xfa, 6, 1), (.selfdestruct, 0xff, 1, 0) ] :
      List (Instr × Byte × Nat × Nat)),
    encode p.1 = [p.2.1] ∧
    ∀ s : State, s.Ready p.2.1 p.2.2.1 p.2.2.2 → exec p.1 s = .next { s with ext := true, host := s.host.tick }

/-- R210 path 1: the host removes the operands, pushes its words, writes its bytes, and the block goes on at `pc + 1`. That the host's action waits in `host.actions` is the model's choice (log 7). -/
def Obligations.HostCompletesTheHandoff : Prop :=
  ∀ (s : State) (e : OpInfo) (pushed : List Word) (touched : List (Nat × Nat)) (written : List Host.Cell)
    (later : List HostAction),
    s.host.reset = none → s.host.request = none → s.halt = .running → s.ext = true →
    lookupByValue (s.codeRead s.pc) = some e → e.unitClass = .ext → s.codeRead s.pc ≠ 0xff → e.pops ≤ s.stack.length →
    pushed.length = e.pushes → s.stack.length - e.pops + e.pushes ≤ s.stackLimit →
    (∀ r ∈ touched, r.2 = 0 ∨ r.1 + r.2 ≤ s.memLimit) → (∀ c ∈ written, c.1 < s.memLimit) →
    s.mem.wf = true → s.memLimit % 32 = 0 → s.msize % 32 = 0 → s.msize ≤ s.memLimit →
    s.host.actions = .complete pushed touched written :: later →
    ∃ (m : Memory) (size : Nat), step s =
        .next { s with
          stack := pushed ++ s.stack.drop e.pops
          mem := m
          msize := size
          pc := s.pc + 1
          ext := false
          trace := s.trace ++ [{ pc := s.pc, opcode := e.value, stack := pushed ++ s.stack.drop e.pops }]
          host := { s.host with actions := later } } ∧
      (∀ a, m.read a = ((written.reverse.find? fun c => decide (c.1 = a)).map Prod.snd).getD (s.mem.read a)) ∧
      size % 32 = 0 ∧ s.msize ≤ size ∧ size ≤ s.memLimit ∧
      (∀ r ∈ touched, r.2 ≠ 0 → r.1 + r.2 ≤ size) ∧ (∀ c ∈ written, c.1 < size)

/-- R210 path 2 and R211: the host halts the run with an exception of any kind, or normally at SELFDESTRUCT; while it gives no action the model refuses. SELFDESTRUCT is never completed at `pc + 1` (R245). The queue is the model's choice (log 7), and that no other opcode may halt normally is read from R210 (log 8). -/
def Obligations.HostHaltsTheHandoff : Prop :=
  ∀ s : State, s.host.reset = none → s.host.request = none → s.halt = .running → s.ext = true →
    (s.host.actions = [] → step s = .refused (.handedOff s.pc (s.codeRead s.pc))) ∧
    (∀ (e : OpInfo) (h : Halt) (later : List HostAction), lookupByValue (s.codeRead s.pc) = some e → e.unitClass = .ext →
      s.host.actions = .halt h :: later →
      ((∃ k, h = .exception k) ∨ (h = .normal ∧ s.codeRead s.pc = 0xff) →
        step s = .next { s with halt := h, ext := false, host := { s.host with actions := later } }) ∧
      (h = .running ∨ h = .revert ∨ (h = .normal ∧ s.codeRead s.pc ≠ 0xff) → step s = .refused .hostProtocol)) ∧
    (∀ (pushed : List Word) (touched : List (Nat × Nat)) (written : List Host.Cell) (later : List HostAction),
      s.codeRead s.pc = 0xff → s.host.actions = .complete pushed touched written :: later →
      step s = .refused .hostProtocol)

/-- R304, R77: each of the 117 unassigned byte values raises `InvalidInstruction` when it is fetched, whatever the mask, and nothing but `halt` changes. -/
def Obligations.UnassignedByteRaisesInvalidInstruction : Prop :=
  (∀ b : Byte, lookupByValue b = none ↔
    let v := b.toNat
    (0x0c ≤ v ∧ v ≤ 0x0f) ∨ (0x1e ≤ v ∧ v ≤ 0x1f) ∨ (0x21 ≤ v ∧ v ≤ 0x2f) ∨ (0x46 ≤ v ∧ v ≤ 0x4f) ∨
      (0x5c ≤ v ∧ v ≤ 0x5f) ∨ (0xa5 ≤ v ∧ v ≤ 0xef) ∨ (0xf6 ≤ v ∧ v ≤ 0xf9) ∨ (0xfb ≤ v ∧ v ≤ 0xfc) ∨ v = 0xfe) ∧
  (∀ s : State, s.Enabled → lookupByValue (s.codeRead s.pc) = none →
    step s = .next { s with halt := .exception .invalidInstruction })

/-- R303: an assigned opcode that is not activated raises `IllegalOperation`, whatever the stack and the meter, and nothing but `halt` changes. -/
def Obligations.InactiveOpcodeRaisesIllegalOperation : Prop :=
  ∀ (i : Instr) (e : OpInfo) (s : State), i.info = some e → s.cfg.active.getLsbD i.opcode.toNat = false →
    exec i s = .next { s with halt := .exception .illegalOperation }

/-- R311, R305, R306, R308: after legality come underflow, overflow, and the meter, in that order; each raises its kind with nothing but `halt` changed. -/
def Obligations.ExceptionPriorityOfTheChecks : Prop :=
  ∀ (i : Instr) (e : OpInfo) (s : State), i.info = some e → s.cfg.active.getLsbD i.opcode.toNat = true →
    (s.stack.length < e.pops → exec i s = .next { s with halt := .exception .stackUnderflow }) ∧
    (e.pops ≤ s.stack.length → s.stackLimit < s.stack.length - e.pops + e.pushes →
      exec i s = .next { s with halt := .exception .stackOverflow }) ∧
    (e.pops ≤ s.stack.length → s.stack.length - e.pops + e.pushes ≤ s.stackLimit → s.host.meter = some 0 →
      exec i s = .next { s with halt := .exception .outOfResource })

/-- R312, R310: a step that ends in an exception changes `halt` and nothing else. -/
def Obligations.ExceptionsArePrecise : Prop :=
  ∀ (s t : State) (k : ErrorKind), s.Enabled → step s = .next t → t.halt = .exception k →
    t = { s with halt := .exception k }

/-- R20, R170: in every state in which the sequencer has a step, the step gives a next state; no ordinary data ends a run in a fault or a refusal. -/
def Obligations.EnabledStepAlwaysHasANextState : Prop :=
  ∀ s : State, s.Enabled → ∃ t, step s = .next t ∧ (t.halt = .running ∨ t.ext = false)

/-- R172: one event for a step that completes, none for a step that raises or hands off. -/
def Obligations.StepEffectOnTheTrace : Prop :=
  ∀ s t : State, s.Enabled → step s = .next t →
    ((∃ k, t.halt = .exception k) ∧ t.trace = s.trace) ∨
    (t.ext = true ∧ t.halt = .running ∧ t.trace = s.trace) ∨
    (t.ext = false ∧ (∀ k, t.halt ≠ .exception k) ∧
      t.trace = s.trace ++ [{ pc := s.pc, opcode := s.codeRead s.pc, stack := t.stack }])

/-- R321, R172: the trace has no effect on any other state, so a run with another history takes the same steps. -/
def Obligations.TraceHasNoEffect : Prop :=
  ∀ (s t : State) (past : List TraceEvent), s.Enabled → step s = .next t →
    ∃ added : List TraceEvent, t.trace = s.trace ++ added ∧
      step { s with trace := past } = .next { t with trace := past ++ added }

/-- R324, R313: with `halt` not `Running` the sequencer has no step; only a reset changes the block. That a step of a halted block is the fault `halted` is the model's choice (log 11). -/
def Obligations.HaltedIsFinal : Prop :=
  ∀ s : State, s.halt ≠ .running → s.host.reset = none →
    (s.host.request = none → step s = .fault .halted) ∧
    (∀ t, step s = .next t → t = { s with host := t.host })

/-- R67, R159: no step without a reset changes the code, the mask, the options or the limits. -/
def Obligations.ConfigurationConstantDuringARun : Prop :=
  ∀ s t : State, s.host.reset = none → step s = .next t →
    t.cfg = s.cfg ∧ t.stackLimit = s.stackLimit ∧ t.memLimit = s.memLimit

/-- R203, R59: within a run `msize` never falls. -/
def Obligations.MsizeNeverDecreases : Prop :=
  ∀ s t : State, s.host.reset = none → step s = .next t → s.msize ≤ t.msize

/-- R341, R340: the reset values the spec gives, in `State.reset` and after a reset in any state; the configuration stays, or is the one the host loaded, also by its writes of `CODE`, `CODELEN`, `ACTIVE` and `OPTS` by number (R38, R342; log 23). -/
def Obligations.ResetGivesTheStatedValues : Prop :=
  (State.reset.pc = 0 ∧ State.reset.halt = .running ∧ State.reset.ext = false ∧ State.reset.stack = [] ∧
    (∀ a, State.reset.mem.read a = 0) ∧ State.reset.msize = 0 ∧ State.reset.ret = [] ∧ State.reset.trace = []) ∧
  (∀ (s : State) (r : ResetRequest) (cfg : LaunchConfig), s.host.reset = some r →
    (r.writes = [] ∧ cfg = r.load.getD s.cfg ∧ cfg.code.length ≤ 2 ^ 32 - 34) ∨
    (∃ (code : List Byte) (active : BitVec 256) (opts : Byte), code.length ≤ 2 ^ 32 - 34 ∧
      r.writes = code.mapIdx HostWrite.code ++ [.reg 5 code.length, .reg 6 active.toNat, .reg 9 opts.toNat] ∧
      cfg = { code := code, active := active, signextendOor := if opts.getLsbD 0 then .fault else .passthrough,
              jumpdestRequired := opts.getLsbD 1 }) → ∃ t, step s = .next t ∧
      t.pc = 0 ∧ t.halt = .running ∧ t.ext = false ∧ t.stack = [] ∧ (∀ a, t.mem.read a = 0) ∧ t.msize = 0 ∧ t.ret = [] ∧
      t.trace = [] ∧ t.cfg = cfg ∧ t.stackLimit = s.stackLimit ∧ t.memLimit = s.memLimit)

/-- R342, R341: the invariant holds at `State.reset`. Its configuration and limits are the model's choice (log 3). -/
def Obligations.InvariantHoldsAtReset : Prop :=
  State.reset.Inv

/-- R24, R26, R28, R30, R31, R39, R8: every step, whoever acts, keeps the invariant of the machine. -/
def Obligations.InvariantKeptByEveryStep : Prop :=
  ∀ s t : State, s.Inv → step s = .next t → t.Inv

/-- R8: under the invariant every value of `pc` is at most `CODE_LEN + 32` and fits in 32 bits, before and after any step; a PUSH32 at the last byte of the code reaches that value. -/
def Obligations.ProgramCounterNeverWraps : Prop :=
  (∀ s : State, s.Inv → (s.pc ≤ s.cfg.code.length + 32 ∧ s.pc < 2 ^ 32) ∧
    ∀ t, step s = .next t → t.pc ≤ t.cfg.code.length + 32 ∧ t.pc < 2 ^ 32) ∧
  (∀ s : State, s.Enabled → s.pc + 1 = s.cfg.code.length → s.codeRead s.pc = 0x7f → s.Ready 0x7f 0 1 →
    ∃ t, step s = .next t ∧ t.pc = s.cfg.code.length + 32)

/-- R39: the fields of `HALT`, and that under the invariant only legal combinations arise. -/
def Obligations.HaltRegisterLayout : Prop :=
  (∀ s : State,
    (s.haltRegister.toNat % 4 = match s.halt with | .running => 0 | .normal => 1 | .revert => 2 | .exception _ => 3) ∧
    s.haltRegister.getLsbD 2 = s.ext ∧ s.haltRegister.getLsbD 3 = false ∧
    (∀ k, s.halt = .exception k → s.haltRegister.toNat / 16 = match k with
      | .overflow => 1 | .rangeError => 2 | .illegalOperation => 3 | .invalidInstruction => 4 | .stackUnderflow => 5
      | .stackOverflow => 6 | .invalidJump => 7 | .outOfResource => 8 | .callDepthExceeded => 9) ∧
    ((∀ k, s.halt ≠ .exception k) → s.haltRegister.toNat / 16 = 0)) ∧
  (∀ s : State, s.Inv → s.haltRegister.getLsbD 2 = true → s.haltRegister.toNat % 4 = 0) ∧
  State.reset.haltRegister = 0x00

/-- R38: what the host reads by register number and from the arrays, and R23, R350: the trace. What has access `RO` is valid only when the run has ended or at a handoff. That the registers and the array of access `CFG` may be read at any time is the model's reading (log 18). -/
def Obligations.HostRegisterView : Prop :=
  ∀ s : State, s.Inv →
    (s.halt = .running → s.ext = false →
      (∀ n, n < 5 ∨ n = 7 ∨ n = 8 → s.hostRead n = none) ∧ (∀ i, s.hostReadStack i = none) ∧ (∀ a, s.hostReadMem a = none) ∧
      (∀ i, s.hostReadRet i = none) ∧ s.hostReadTrace = none) ∧
    (s.halt ≠ .running ∨ s.ext = true →
      s.hostRead 0 = some s.haltRegister.toNat ∧ s.hostRead 1 = some s.pc ∧ s.hostRead 2 = some s.stack.length ∧
      s.hostRead 3 = some s.msize ∧ s.hostRead 4 = some s.ret.length ∧ s.hostRead 7 = some s.stackLimit ∧
      s.hostRead 8 = some s.memLimit ∧ (∀ i, s.hostReadStack i = s.stack[i]?) ∧
      (∀ a, s.hostReadMem a = if a < s.memLimit then some (s.mem.read a) else none) ∧
      (∀ i, s.hostReadRet i = s.ret[i]?) ∧ s.hostReadTrace = some s.trace) ∧
    s.hostRead 5 = some s.cfg.code.length ∧ s.hostRead 6 = some s.cfg.active.toNat ∧
    s.hostRead 9 = some ((if s.cfg.jumpdestRequired then 2 else 0) + (if s.cfg.signextendOor = .fault then 1 else 0)) ∧
    (∀ i, s.hostReadCode i = s.cfg.code[i]?) ∧
    ∀ n, 10 ≤ n → s.hostRead n = none

/-- R170: when the bytes at `pc` decode to a well-formed instruction, the step is that instruction's meaning at that state, with nothing around it. -/
def Obligations.StepRunsTheDecodedInstruction : Prop :=
  ∀ (s : State) (i : Instr), s.Enabled → decode (s.codeFrom s.pc) = .instr i → i.wf = true → step s = exec i s

/-- R70 to R73, R76: a few instruction words written out from the encoding tables decode to their instructions. -/
def Obligations.DecodeReadsTheWrittenWords : Prop :=
  decode [0x01] = .instr .add ∧ decode [0x10] = .instr .lt ∧ decode [0x1d] = .instr .sar ∧ decode [0x20] = .instr .sha3 ∧
  decode [0x61, 0x01, 0xfe] = .instr (.push2 0x01fe) ∧ decode [0x61, 0xab] = .instr (.push2 0xab00) ∧
  decode [0x8f] = .instr .dup16 ∧ decode [0x90] = .instr .swap1 ∧ decode [0xf3] = .instr .return_ ∧
  decode [0x51] = .instr .mload ∧ decode [0xff] = .instr .selfdestruct ∧ decode [] = .instr .stop ∧
  decode [0x0c] = .unassigned 0x0c ∧ decode [0xc0] = .unassigned 0xc0

/-- R70 to R73: decoding the bytes of any well-formed instruction, whatever follows them, gives it back; the four functions of the port come back from their select (R82). -/
def Obligations.DecodeEncodeRoundTrip : Prop :=
  ∀ i : Instr, i.wf = true →
    (i.info.isSome = true → ∀ rest : List Byte, decode (encode i ++ rest) = .instr i) ∧
    (i.info = none → encode i = [i.opcode] ∧ decodeSelect i.opcode = some i) ∧
    (encode i).length = 1 + i.immLen

/-- R79, R70, R52: every byte sequence has one reading; encoding what was decoded gives the bytes back, a cut immediate filled with 0x00. -/
def Obligations.EncodeDecodeGivesTheBytes : Prop :=
  ∀ (bytes : List Byte) (i : Instr), decode bytes = .instr i →
    i.wf = true ∧ i.info.isSome = true ∧
    ∀ j, j < i.length → (encode i).getD j 0 = bytes.getD j 0

/-- R158: 139 assigned values, one mnemonic each and no mnemonic twice; the call family is the four of R83; the call predicates fail on every other record. -/
def Obligations.InstructionTableProperties : Prop :=
  opcodeMap.length = 139 ∧
  (opcodeMap.map fun r => r.info.value).Nodup ∧ (opcodeMap.map fun r => r.info.mnemonic).Nodup ∧
  (∀ (v : Byte) (e : OpInfo), lookupByValue v = some e → e.value = v ∧
    (isCall e = true ↔ v ∈ ([0xf1, 0xf2, 0xf4, 0xfa] : List Byte)) ∧
    (isCall e = false → callIsStateless e = .preconditionFailure ∧ callHasValue e = .preconditionFailure ∧
      callIsStatic e = .preconditionFailure ∧ callIsDelegate e = .preconditionFailure) ∧
    (isCall e = true → callHasValue e = .answer (decide (v = 0xf1 ∨ v = 0xf2)) ∧
      callIsStateless e = .answer (decide (v = 0xf2 ∨ v = 0xf4)) ∧
      callIsStatic e = .answer (decide (v = 0xfa)) ∧ callIsDelegate e = .answer (decide (v = 0xf4))))

/-- R151: the text must be ASCII throughout, and be a mnemonic with ASCII white space before and after it. Which characters are white space is the default of U7 (log 14). -/
def Obligations.LookupByNameTrimsAndMatchesExactly : Prop :=
  ∀ t : String, lookupByName t = true ↔
    (∀ c ∈ t.toList, c.toNat ≤ 0x7f) ∧
    ∃ (r : OpRow) (before after : List Char), r ∈ opcodeMap ∧
      (∀ c ∈ before ++ after, c.toNat ∈ ([0x20, 0x09, 0x0a, 0x0d, 0x0b, 0x0c] : List Nat)) ∧
      t.toList = before ++ (r.info.mnemonic.toList ++ after)

/-- R38 (access `HS`), R39, R210, R350: an action that the host makes of writes at its port, by register number and array, leaves what path 1 or path 2 of R210 leaves and nothing else; one that does not is refused. The queue of actions is the model's choice (log 7), and so is that the writes of one action stand together or not at all (log 23). -/
def Obligations.HostWritesAtTheHandoff : Prop :=
  ∀ (s : State) (e : OpInfo) (ws : List HostWrite) (later : List HostAction),
    s.host.reset = none → s.host.request = none → s.halt = .running → s.ext = true → s.mem.wf = true →
    lookupByValue (s.codeRead s.pc) = some e → e.unitClass = .ext → s.host.actions = .writes ws :: later →
    (∀ t, step s = .next t →
      (∃ k, t = { s with halt := .exception k, ext := false, host := { s.host with actions := later } }) ∨
      (e.value = 0xff ∧ t = { s with halt := .normal, ext := false, host := { s.host with actions := later } }) ∨
      (e.value ≠ 0xff ∧ e.pops ≤ s.stack.length ∧ t.stack.length = s.stack.length - e.pops + e.pushes ∧
        t.stack.length ≤ s.stackLimit ∧ t.stack.drop e.pushes = s.stack.drop e.pops ∧
        t.msize % 32 = 0 ∧ s.msize ≤ t.msize ∧ t.msize ≤ s.memLimit ∧
        (∀ a, t.mem.read a = s.mem.read a ∨ (a < t.msize ∧ ∃ b, .mem a b ∈ ws)) ∧
        t = { s with
          stack := t.stack
          mem := t.mem
          msize := t.msize
          pc := s.pc + 1
          ext := false
          trace := s.trace ++ [{ pc := s.pc, opcode := e.value, stack := t.stack }]
          host := { s.host with actions := later } })) ∧
    (∀ k : ErrorKind, ws = [.reg 0 (match k with
      | .overflow => 0x13 | .rangeError => 0x23 | .illegalOperation => 0x33 | .invalidInstruction => 0x43
      | .stackUnderflow => 0x53 | .stackOverflow => 0x63 | .invalidJump => 0x73 | .outOfResource => 0x83
      | .callDepthExceeded => 0x93)] →
      step s = .next { s with halt := .exception k, ext := false, host := { s.host with actions := later } }) ∧
    (e.value = 0xff → ws = [.reg 0 1] →
      step s = .next { s with halt := .normal, ext := false, host := { s.host with actions := later } }) ∧
    (∀ pushed : List Word, e.value ≠ 0xff → e.pops ≤ s.stack.length → pushed.length = e.pushes →
      s.stack.length - e.pops + e.pushes ≤ s.stackLimit → s.msize % 32 = 0 → s.msize ≤ s.memLimit → s.pc + 1 < 2 ^ 32 →
      ws = [.reg 2 (s.stack.length - e.pops), .reg 2 (s.stack.length - e.pops + e.pushes)] ++ pushed.mapIdx HostWrite.stack ++
        [.reg 1 (s.pc + 1), .event { pc := s.pc, opcode := e.value, stack := pushed ++ s.stack.drop e.pops }, .reg 0 0] →
      step s = .next { s with
        stack := pushed ++ s.stack.drop e.pops
        pc := s.pc + 1
        ext := false
        trace := s.trace ++ [{ pc := s.pc, opcode := e.value, stack := pushed ++ s.stack.drop e.pops }]
        host := { s.host with actions := later } }) ∧
    ((∃ n v, 4 ≤ n ∧ .reg n v ∈ ws) ∨ (∃ i b, .code i b ∈ ws) → step s = .refused .hostProtocol)
end

