-- ==== Sys2Proof/Laws/State.lean ====
section
/-!
SUPPORT. One lemma for each field of each update of the state, true by `rfl`, so that no proof unfolds an update.
-/

namespace Sys2Proof.Machine

section
variable (s : State) (k : ErrorKind)

@[simp] theorem State.raise_pc : (s.raise k).pc = s.pc := rfl
@[simp] theorem State.raise_stack : (s.raise k).stack = s.stack := rfl
@[simp] theorem State.raise_mem : (s.raise k).mem = s.mem := rfl
@[simp] theorem State.raise_msize : (s.raise k).msize = s.msize := rfl
@[simp] theorem State.raise_halt : (s.raise k).halt = .exception k := rfl
@[simp] theorem State.raise_ret : (s.raise k).ret = s.ret := rfl
@[simp] theorem State.raise_ext : (s.raise k).ext = s.ext := rfl
@[simp] theorem State.raise_trace : (s.raise k).trace = s.trace := rfl
@[simp] theorem State.raise_cfg : (s.raise k).cfg = s.cfg := rfl
@[simp] theorem State.raise_stackLimit : (s.raise k).stackLimit = s.stackLimit := rfl
@[simp] theorem State.raise_memLimit : (s.raise k).memLimit = s.memLimit := rfl
@[simp] theorem State.raise_host : (s.raise k).host = s.host := rfl

end

section
variable (s : State) (st : List Word)

@[simp] theorem State.advance_pc : (s.advance st).pc = s.pc + 1 := rfl
@[simp] theorem State.advance_stack : (s.advance st).stack = st := rfl
@[simp] theorem State.advance_mem : (s.advance st).mem = s.mem := rfl
@[simp] theorem State.advance_msize : (s.advance st).msize = s.msize := rfl
@[simp] theorem State.advance_halt : (s.advance st).halt = s.halt := rfl
@[simp] theorem State.advance_ret : (s.advance st).ret = s.ret := rfl
@[simp] theorem State.advance_ext : (s.advance st).ext = s.ext := rfl
@[simp] theorem State.advance_trace : (s.advance st).trace = s.trace := rfl
@[simp] theorem State.advance_cfg : (s.advance st).cfg = s.cfg := rfl
@[simp] theorem State.advance_stackLimit : (s.advance st).stackLimit = s.stackLimit := rfl
@[simp] theorem State.advance_memLimit : (s.advance st).memLimit = s.memLimit := rfl
@[simp] theorem State.advance_host : (s.advance st).host = s.host := rfl

end

section
variable (s : State) (v : Byte) (t : State)

@[simp] theorem State.retire_pc : (s.retire v t).pc = t.pc := rfl
@[simp] theorem State.retire_stack : (s.retire v t).stack = t.stack := rfl
@[simp] theorem State.retire_mem : (s.retire v t).mem = t.mem := rfl
@[simp] theorem State.retire_msize : (s.retire v t).msize = t.msize := rfl
@[simp] theorem State.retire_halt : (s.retire v t).halt = t.halt := rfl
@[simp] theorem State.retire_ret : (s.retire v t).ret = t.ret := rfl
@[simp] theorem State.retire_ext : (s.retire v t).ext = t.ext := rfl
@[simp] theorem State.retire_trace : (s.retire v t).trace = s.trace ++ [{ pc := s.pc, opcode := v, stack := t.stack }] := rfl
@[simp] theorem State.retire_cfg : (s.retire v t).cfg = t.cfg := rfl
@[simp] theorem State.retire_stackLimit : (s.retire v t).stackLimit = t.stackLimit := rfl
@[simp] theorem State.retire_memLimit : (s.retire v t).memLimit = t.memLimit := rfl
@[simp] theorem State.retire_host : (s.retire v t).host = s.host.tick := rfl

end

section
variable (s : State) (v : Byte) (st : List Word) (pc : Nat)

@[simp] theorem State.done_pc : (s.done v st pc).pc = pc := rfl
@[simp] theorem State.done_stack : (s.done v st pc).stack = st := rfl
@[simp] theorem State.done_mem : (s.done v st pc).mem = s.mem := rfl
@[simp] theorem State.done_msize : (s.done v st pc).msize = s.msize := rfl
@[simp] theorem State.done_halt : (s.done v st pc).halt = s.halt := rfl
@[simp] theorem State.done_ret : (s.done v st pc).ret = s.ret := rfl
@[simp] theorem State.done_ext : (s.done v st pc).ext = s.ext := rfl
@[simp] theorem State.done_trace : (s.done v st pc).trace = s.trace ++ [{ pc := s.pc, opcode := v, stack := st }] := rfl
@[simp] theorem State.done_cfg : (s.done v st pc).cfg = s.cfg := rfl
@[simp] theorem State.done_stackLimit : (s.done v st pc).stackLimit = s.stackLimit := rfl
@[simp] theorem State.done_memLimit : (s.done v st pc).memLimit = s.memLimit := rfl
@[simp] theorem State.done_host : (s.done v st pc).host = s.host.tick := rfl

end

section
variable (s : State) (ans : PortAnswer)

@[simp] theorem State.answerPort_pc : (s.answerPort ans).pc = s.pc := rfl
@[simp] theorem State.answerPort_stack : (s.answerPort ans).stack = s.stack := rfl
@[simp] theorem State.answerPort_mem : (s.answerPort ans).mem = s.mem := rfl
@[simp] theorem State.answerPort_msize : (s.answerPort ans).msize = s.msize := rfl
@[simp] theorem State.answerPort_halt : (s.answerPort ans).halt = s.halt := rfl
@[simp] theorem State.answerPort_ret : (s.answerPort ans).ret = s.ret := rfl
@[simp] theorem State.answerPort_ext : (s.answerPort ans).ext = s.ext := rfl
@[simp] theorem State.answerPort_trace : (s.answerPort ans).trace = s.trace := rfl
@[simp] theorem State.answerPort_cfg : (s.answerPort ans).cfg = s.cfg := rfl
@[simp] theorem State.answerPort_stackLimit : (s.answerPort ans).stackLimit = s.stackLimit := rfl
@[simp] theorem State.answerPort_memLimit : (s.answerPort ans).memLimit = s.memLimit := rfl
@[simp] theorem State.answerPort_host : (s.answerPort ans).host = { s.host with request := none, answer := some ans } := rfl

end

section
variable (s : State)

@[simp] theorem State.afterReset_pc : (s.afterReset).pc = 0 := rfl
@[simp] theorem State.afterReset_stack : (s.afterReset).stack = [] := rfl
@[simp] theorem State.afterReset_mem : (s.afterReset).mem = [] := rfl
@[simp] theorem State.afterReset_msize : (s.afterReset).msize = 0 := rfl
@[simp] theorem State.afterReset_halt : (s.afterReset).halt = .running := rfl
@[simp] theorem State.afterReset_ret : (s.afterReset).ret = [] := rfl
@[simp] theorem State.afterReset_ext : (s.afterReset).ext = false := rfl
@[simp] theorem State.afterReset_trace : (s.afterReset).trace = [] := rfl
@[simp] theorem State.afterReset_cfg : (s.afterReset).cfg = s.cfg := rfl
@[simp] theorem State.afterReset_stackLimit : (s.afterReset).stackLimit = s.stackLimit := rfl
@[simp] theorem State.afterReset_memLimit : (s.afterReset).memLimit = s.memLimit := rfl
@[simp] theorem State.afterReset_host : (s.afterReset).host = s.host := rfl

end

section
variable (s : State) (e : OpInfo) (p : List Word) (q : List (Nat × Nat)) (w : List Host.Cell)

@[simp] theorem State.hostComplete_pc : (s.hostComplete e p q w).pc = s.pc + 1 := rfl
@[simp] theorem State.hostComplete_stack : (s.hostComplete e p q w).stack = p ++ s.stack.drop e.pops := rfl
@[simp] theorem State.hostComplete_mem : (s.hostComplete e p q w).mem = writeCells s.mem w := rfl
@[simp] theorem State.hostComplete_msize : (s.hostComplete e p q w).msize = touchAll s.memLimit s.msize (hostRanges q w) := rfl
@[simp] theorem State.hostComplete_halt : (s.hostComplete e p q w).halt = s.halt := rfl
@[simp] theorem State.hostComplete_ret : (s.hostComplete e p q w).ret = s.ret := rfl
@[simp] theorem State.hostComplete_ext : (s.hostComplete e p q w).ext = false := rfl
@[simp] theorem State.hostComplete_trace : (s.hostComplete e p q w).trace = s.trace ++ [{ pc := s.pc, opcode := e.value, stack := p ++ s.stack.drop e.pops }] := rfl
@[simp] theorem State.hostComplete_cfg : (s.hostComplete e p q w).cfg = s.cfg := rfl
@[simp] theorem State.hostComplete_stackLimit : (s.hostComplete e p q w).stackLimit = s.stackLimit := rfl
@[simp] theorem State.hostComplete_memLimit : (s.hostComplete e p q w).memLimit = s.memLimit := rfl
@[simp] theorem State.hostComplete_host : (s.hostComplete e p q w).host = s.host := rfl

end

section
variable (s : State) (d : HostDraft) (words : List Word)

@[simp] theorem State.ofDraft_pc : (s.ofDraft d words).pc = d.pc := rfl
@[simp] theorem State.ofDraft_stack : (s.ofDraft d words).stack = words := rfl
@[simp] theorem State.ofDraft_mem : (s.ofDraft d words).mem = d.mem := rfl
@[simp] theorem State.ofDraft_msize : (s.ofDraft d words).msize = d.msize := rfl
@[simp] theorem State.ofDraft_halt : (s.ofDraft d words).halt = d.halt := rfl
@[simp] theorem State.ofDraft_ret : (s.ofDraft d words).ret = s.ret := rfl
@[simp] theorem State.ofDraft_ext : (s.ofDraft d words).ext = d.ext := rfl
@[simp] theorem State.ofDraft_trace : (s.ofDraft d words).trace = d.trace := rfl
@[simp] theorem State.ofDraft_cfg : (s.ofDraft d words).cfg = s.cfg := rfl
@[simp] theorem State.ofDraft_stackLimit : (s.ofDraft d words).stackLimit = s.stackLimit := rfl
@[simp] theorem State.ofDraft_memLimit : (s.ofDraft d words).memLimit = s.memLimit := rfl
@[simp] theorem State.ofDraft_host : (s.ofDraft d words).host = s.host := rfl

end

section
variable (h : HostSide)

@[simp] theorem HostSide.tick_actions : h.tick.actions = h.actions := rfl
@[simp] theorem HostSide.tick_reset : h.tick.reset = h.reset := rfl
@[simp] theorem HostSide.tick_request : h.tick.request = h.request := rfl
@[simp] theorem HostSide.tick_a : h.tick.a = h.a := rfl
@[simp] theorem HostSide.tick_b : h.tick.b = h.b := rfl
@[simp] theorem HostSide.tick_c : h.tick.c = h.c := rfl
@[simp] theorem HostSide.tick_answer : h.tick.answer = h.answer := rfl
@[simp] theorem HostSide.tick_meter : h.tick.meter = h.meter.map (· - 1) := rfl

end

/-- An instruction that only writes the stack and `pc` leaves what `State.done` says. -/
theorem State.retire_stack_pc (s : State) (v : Byte) (st : List Word) (pc : Nat) :
    s.retire v { s with stack := st, pc := pc } = s.done v st pc := rfl

theorem State.retire_advance (s : State) (v : Byte) (st : List Word) :
    s.retire v (s.advance st) = s.done v st (s.pc + 1) := rfl

end Sys2Proof.Machine
end

