-- ==== Sys2Proof/Laws/Memory.lean ====
section
/-!
SUPPORT. The data memory: what a write reads back, and that every operation keeps the canonical form (20_memory.md R57 to
R59).
-/

namespace Sys2Proof.Machine

/-- A canonical memory has no entry below its lower bound. -/
theorem Memory.read_below {low : Nat} {m : Memory} (h : Memory.wfFrom low m = true) {a : Nat} (ha : a < low) :
    Memory.read m a = Memory.unlisted := by
  induction m generalizing low with
  | nil => rfl
  | cons p rest ih =>
    obtain ⟨c, x⟩ := p
    simp only [Memory.wfFrom, Bool.and_eq_true, decide_eq_true_eq] at h
    have hc : c ≠ a := by omega
    simp only [Memory.read, if_neg hc]
    exact ih h.2 (by omega)

/-- A lower bound may be lowered. -/
theorem Memory.wfFrom_mono {low low' : Nat} {m : Memory} (h : Memory.wfFrom low m = true) (hl : low' ≤ low) :
    Memory.wfFrom low' m = true := by
  cases m with
  | nil => rfl
  | cons p rest =>
    obtain ⟨c, x⟩ := p
    simp only [Memory.wfFrom, Bool.and_eq_true, decide_eq_true_eq] at h ⊢
    exact ⟨⟨by omega, h.1.2⟩, h.2⟩

/-- What one write does: the byte is read back and every other offset reads as before. -/
theorem Memory.read_write_from {low : Nat} {m : Memory} (h : Memory.wfFrom low m = true) (a : Nat) (b : Byte) (x : Nat) :
    Memory.read (Memory.write m a b) x = if x = a then b else Memory.read m x := by
  induction m generalizing low with
  | nil =>
    by_cases hb : b = Memory.unlisted
    · simp [Memory.write, Memory.read, hb]
    · simp [Memory.write, Memory.read, hb, eq_comm]
  | cons p rest ih =>
    obtain ⟨c, y⟩ := p
    simp only [Memory.wfFrom, Bool.and_eq_true, decide_eq_true_eq] at h
    have hrest : ∀ z, z ≤ c → Memory.read rest z = Memory.unlisted := fun z hz => Memory.read_below h.2 (by omega)
    have key := ih h.2
    by_cases h1 : a < c
    · by_cases hb : b = Memory.unlisted
      · by_cases hx : x = a
        · subst hx
          have : c ≠ x := by omega
          simp [Memory.write, Memory.read, h1, hb, this, hrest x (by omega)]
        · simp [Memory.write, h1, hb, hx]
      · by_cases hx : x = a
        · simp [Memory.write, Memory.read, h1, hb, hx]
        · have hx' : ¬ a = x := fun e => hx e.symm
          simp [Memory.write, Memory.read, h1, hb, hx, hx']
    · by_cases h2 : a = c
      · subst h2
        by_cases hb : b = Memory.unlisted
        · by_cases hx : x = a
          · subst hx
            simp [Memory.write, hb, hrest x (Nat.le_refl x)]
          · have hx' : ¬ a = x := fun e => hx e.symm
            simp [Memory.write, Memory.read, hb, hx, hx']
        · by_cases hx : x = a
          · simp [Memory.write, Memory.read, hb, hx]
          · have hx' : ¬ a = x := fun e => hx e.symm
            simp [Memory.write, Memory.read, hb, hx, hx']
      · by_cases hx : x = c
        · subst hx
          have hx' : ¬ x = a := fun e => h2 e.symm
          simp [Memory.write, Memory.read, h1, h2, hx']
        · have hx' : ¬ c = x := fun e => hx e.symm
          simp [Memory.write, Memory.read, h1, h2, hx', key]

theorem Memory.read_write {m : Memory} (h : m.wf = true) (a : Nat) (b : Byte) (x : Nat) :
    (m.write a b).read x = if x = a then b else m.read x := Memory.read_write_from h a b x

/-- A write keeps the canonical form. -/
theorem Memory.write_wfFrom {low : Nat} {m : Memory} (h : Memory.wfFrom low m = true) {a : Nat} (ha : low ≤ a) (b : Byte) :
    Memory.wfFrom low (Memory.write m a b) = true := by
  induction m generalizing low with
  | nil =>
    by_cases hb : b = Memory.unlisted <;> simp [Memory.write, Memory.wfFrom, hb, ha]
  | cons p rest ih =>
    obtain ⟨c, y⟩ := p
    simp only [Memory.wfFrom, Bool.and_eq_true, decide_eq_true_eq] at h
    obtain ⟨⟨hlc, hy⟩, hrest⟩ := h
    by_cases h1 : a < c
    · by_cases hb : b = Memory.unlisted
      · simp [Memory.write, Memory.wfFrom, h1, hb, hlc, hy, hrest]
      · simp [Memory.write, Memory.wfFrom, h1, hb, ha, hy, hrest]
    · by_cases h2 : a = c
      · subst h2
        by_cases hb : b = Memory.unlisted
        · simp [Memory.write, hb]
          exact Memory.wfFrom_mono hrest (by omega)
        · simp [Memory.write, Memory.wfFrom, hb, hlc, hrest]
      · simp only [Memory.write, if_neg h1, if_neg h2, Memory.wfFrom, Bool.and_eq_true, decide_eq_true_eq]
        exact ⟨⟨hlc, hy⟩, ih hrest (by omega)⟩

theorem Memory.write_wf {m : Memory} (h : m.wf = true) (a : Nat) (b : Byte) : (m.write a b).wf = true :=
  Memory.write_wfFrom h (Nat.zero_le a) b

/-- A write of many bytes keeps the canonical form. -/
theorem memWrite_wf {m : Memory} (h : m.wf = true) (a : Nat) (bs : List Byte) : (memWrite m a bs).wf = true := by
  induction bs generalizing m a with
  | nil => exact h
  | cons b bs ih => exact ih (Memory.write_wf h a b) (a + 1)

/-- The host's writes keep the canonical form. -/
theorem writeCells_wf {m : Memory} (h : m.wf = true) (cs : List Host.Cell) : (writeCells m cs).wf = true := by
  induction cs generalizing m with
  | nil => exact h
  | cons c cs ih => exact ih (Memory.write_wf h c.1 c.2)

/-- The memory of the reset state has the canonical form. -/
theorem reset_mem_wf : State.reset.mem.wf = true := rfl

/-- What `MemWrite` does (R58): the bytes are read back at their offsets, every other offset reads as before. -/
theorem read_memWrite {m : Memory} (h : m.wf = true) (a : Nat) (bs : List Byte) (x : Nat) :
    (memWrite m a bs).read x = if a ≤ x ∧ x < a + bs.length then bs.getD (x - a) 0 else m.read x := by
  induction bs generalizing m a with
  | nil =>
    simp [memWrite]
  | cons b bs ih =>
    rw [memWrite, ih (Memory.write_wf h a b), Memory.read_write h]
    by_cases hx : x = a
    · subst hx
      have h1 : ¬ (x + 1 ≤ x ∧ x < x + 1 + bs.length) := by omega
      simp
    · by_cases hin : a + 1 ≤ x ∧ x < a + 1 + bs.length
      · have h2 : a ≤ x ∧ x < a + (b :: bs).length := by simp; omega
        obtain ⟨k, rfl⟩ : ∃ k, x = a + 1 + k := ⟨x - (a + 1), by omega⟩
        have e : a + 1 + k - a = k + 1 := by omega
        rw [if_pos hin, if_pos h2, e]
        simp
      · have h2 : ¬ (a ≤ x ∧ x < a + (b :: bs).length) := by simp; omega
        rw [if_neg hin, if_neg h2, if_neg hx]

/-- The bytes that are listed after a write were listed before it, or are the byte written. -/
theorem Memory.mem_write {m : Memory} {a : Nat} {b : Byte} {c : Host.Cell} (h : c ∈ Memory.write m a b) :
    c ∈ m ∨ c = (a, b) := by
  induction m with
  | nil =>
    by_cases hb : b = Memory.unlisted
    · simp [Memory.write, hb] at h
    · simp [Memory.write, hb] at h
      exact .inr h
  | cons p rest ih =>
    obtain ⟨c', y⟩ := p
    by_cases h1 : a < c'
    · by_cases hb : b = Memory.unlisted
      · simp [Memory.write, h1, hb] at h
        exact .inl (by simpa using h)
      · simp [Memory.write, h1, hb] at h
        rcases h with h | h
        · exact .inr h
        · exact .inl (by simpa using h)
    · by_cases h2 : a = c'
      · subst h2
        by_cases hb : b = Memory.unlisted
        · simp [Memory.write, hb] at h
          exact .inl (List.mem_cons_of_mem _ h)
        · simp [Memory.write, hb] at h
          rcases h with h | h
          · exact .inr h
          · exact .inl (List.mem_cons_of_mem _ h)
      · simp only [Memory.write, if_neg h1, if_neg h2, List.mem_cons] at h
        rcases h with h | h
        · exact .inl (by simp [h])
        · rcases ih h with h | h
          · exact .inl (List.mem_cons_of_mem _ h)
          · exact .inr h

/-- Writing below a bound keeps every listed offset below it. -/
theorem memWrite_below {m : Memory} {n : Nat} (h : ∀ c ∈ m, c.1 < n) {a : Nat} {bs : List Byte} (ha : a + bs.length ≤ n) :
    ∀ c ∈ memWrite m a bs, c.1 < n := by
  induction bs generalizing m a with
  | nil => exact h
  | cons b bs ih =>
    simp only [List.length_cons] at ha
    refine ih (fun c hc => ?_) (by omega)
    rcases Memory.mem_write hc with hc | hc
    · exact h c hc
    · subst hc
      show a < n
      omega

theorem writeCells_below {m : Memory} {n : Nat} (h : ∀ c ∈ m, c.1 < n) {cs : List Host.Cell} (hc : ∀ c ∈ cs, c.1 < n) :
    ∀ c ∈ writeCells m cs, c.1 < n := by
  induction cs generalizing m with
  | nil => exact h
  | cons d cs ih =>
    refine ih (fun c hcm => ?_) (fun c hm => hc c (List.mem_cons_of_mem _ hm))
    rcases Memory.mem_write hcm with hcm | hcm
    · exact h c hcm
    · subst hcm
      exact hc d (List.mem_cons_self ..)

/-- What `Touch` can do (R59): for an accepted range the new `msize` is `grownTo`. -/
theorem touch_ok {lim msize a n m : Nat} (h : touch lim msize a n = .ok m) :
    m = grownTo msize a n ∧ (n = 0 ∨ a + n ≤ lim) := by
  unfold touch at h
  split at h
  · rename_i h0
    injection h with h
    subst h
    exact ⟨by simp [grownTo, h0], .inl h0⟩
  · rename_i h0
    split at h
    · cases h
    · rename_i h1
      injection h with h
      subst h
      exact ⟨by simp [grownTo, h0, Config.wordBytes], .inr (by omega)⟩

/-- `Touch` raises only `OutOfResource`, and only for a range of nonzero length past the limit. -/
theorem touch_error {lim msize a n : Nat} {k : ErrorKind} (h : touch lim msize a n = .error k) :
    k = .outOfResource ∧ n ≠ 0 ∧ lim < a + n := by
  unfold touch at h
  split at h
  · cases h
  · rename_i h0
    split at h
    · rename_i h1
      injection h with h
      exact ⟨h.symm, h0, h1⟩
    · cases h

theorem touch_of_le {lim msize a n : Nat} (h : n = 0 ∨ a + n ≤ lim) : touch lim msize a n = .ok (grownTo msize a n) := by
  unfold touch grownTo
  by_cases h0 : n = 0
  · simp [h0]
  · have h1 : ¬ a + n > lim := by omega
    simp [h0, h1, Config.wordBytes]

theorem touch_of_lt {lim msize a n : Nat} (h0 : n ≠ 0) (h : lim < a + n) : touch lim msize a n = .error .outOfResource := by
  simp [touch, h0, h]

/-- The grown mark: a multiple of 32 within the limit, at least what it was, and past the range. -/
theorem grownTo_spec {lim msize a n : Nat} (hl : lim % 32 = 0) (hm : msize % 32 = 0) (hle : msize ≤ lim)
    (h : n = 0 ∨ a + n ≤ lim) :
    grownTo msize a n % 32 = 0 ∧ msize ≤ grownTo msize a n ∧ grownTo msize a n ≤ lim ∧
      (n ≠ 0 → a + n ≤ grownTo msize a n) := by
  unfold grownTo
  by_cases h0 : n = 0
  · simp [h0, hm, hle]
  · rw [if_neg h0]
    omega

/-- The mark never falls, whatever its value. -/
theorem le_grownTo (msize a n : Nat) : msize ≤ grownTo msize a n := by
  unfold grownTo
  split
  · exact Nat.le_refl _
  · exact Nat.le_max_left _ _

/-- The mark after the ranges of a list that are all accepted. -/
theorem touchAll_spec {lim msize : Nat} {rs : List (Nat × Nat)} (hl : lim % 32 = 0) (hm : msize % 32 = 0)
    (hle : msize ≤ lim) (h : ∀ r ∈ rs, r.2 = 0 ∨ r.1 + r.2 ≤ lim) :
    touchAll lim msize rs % 32 = 0 ∧ msize ≤ touchAll lim msize rs ∧ touchAll lim msize rs ≤ lim ∧
      ∀ r ∈ rs, r.2 ≠ 0 → r.1 + r.2 ≤ touchAll lim msize rs := by
  induction rs generalizing msize with
  | nil => exact ⟨hm, Nat.le_refl _, hle, fun r hr => by cases hr⟩
  | cons r rs ih =>
    have hr := h r (List.mem_cons_self ..)
    have g := grownTo_spec hl hm hle hr
    have t := ih g.1 g.2.2.1 (fun q hq => h q (List.mem_cons_of_mem _ hq))
    rw [touchAll, touch_of_le hr]
    refine ⟨t.1, Nat.le_trans g.2.1 t.2.1, t.2.2.1, fun q hq hq0 => ?_⟩
    rcases List.mem_cons.mp hq with rfl | hq
    · exact Nat.le_trans (g.2.2.2 hq0) t.2.1
    · exact t.2.2.2 q hq hq0

theorem le_touchAll (lim msize : Nat) (rs : List (Nat × Nat)) : msize ≤ touchAll lim msize rs := by
  induction rs generalizing msize with
  | nil => exact Nat.le_refl _
  | cons r rs ih =>
    rw [touchAll]
    split
    · rename_i m hm
      have := (touch_ok hm).1
      subst this
      exact Nat.le_trans (le_grownTo ..) (ih _)
    · exact ih _

end Sys2Proof.Machine
end

