-- ==== Sys2Proof/Laws/PerInstr.lean ====
section
/-!
SUPPORT. Facts about instructions as syntax, one lemma for each constructor: the table finds the record of an opcode, and
the length of an encoding.
-/

namespace Sys2Proof.Laws

/-- The record of an instruction stands in the table under its opcode byte, with its immediate length. -/
def LookupOpcode.Statement (i : Instr) : Prop :=
  ∀ e, i.info = some e → Machine.lookupByValue i.opcode = some e ∧ e.value = i.opcode ∧ e.imm = i.immLen

/-- An encoding has one byte for the opcode and those of the immediate. -/
def EncodeLength.Statement (i : Instr) : Prop := (encode i).length = i.length

theorem LookupOpcode.stop : LookupOpcode.Statement .stop := by
  intro e h
  cases h
  exact ⟨rfl, rfl, rfl⟩

theorem LookupOpcode.add : LookupOpcode.Statement .add := by
  intro e h
  cases h
  exact ⟨rfl, rfl, rfl⟩

theorem LookupOpcode.mul : LookupOpcode.Statement .mul := by
  intro e h
  cases h
  exact ⟨rfl, rfl, rfl⟩

theorem LookupOpcode.sub : LookupOpcode.Statement .sub := by
  intro e h
  cases h
  exact ⟨rfl, rfl, rfl⟩

theorem LookupOpcode.div : LookupOpcode.Statement .div := by
  intro e h
  cases h
  exact ⟨rfl, rfl, rfl⟩

theorem LookupOpcode.sdiv : LookupOpcode.Statement .sdiv := by
  intro e h
  cases h
  exact ⟨rfl, rfl, rfl⟩

theorem LookupOpcode.mod : LookupOpcode.Statement .mod := by
  intro e h
  cases h
  exact ⟨rfl, rfl, rfl⟩

theorem LookupOpcode.smod : LookupOpcode.Statement .smod := by
  intro e h
  cases h
  exact ⟨rfl, rfl, rfl⟩

theorem LookupOpcode.addmod : LookupOpcode.Statement .addmod := by
  intro e h
  cases h
  exact ⟨rfl, rfl, rfl⟩

theorem LookupOpcode.mulmod : LookupOpcode.Statement .mulmod := by
  intro e h
  cases h
  exact ⟨rfl, rfl, rfl⟩

theorem LookupOpcode.exp : LookupOpcode.Statement .exp := by
  intro e h
  cases h
  exact ⟨rfl, rfl, rfl⟩

theorem LookupOpcode.signextend : LookupOpcode.Statement .signextend := by
  intro e h
  cases h
  exact ⟨rfl, rfl, rfl⟩

theorem LookupOpcode.lt : LookupOpcode.Statement .lt := by
  intro e h
  cases h
  exact ⟨rfl, rfl, rfl⟩

theorem LookupOpcode.gt : LookupOpcode.Statement .gt := by
  intro e h
  cases h
  exact ⟨rfl, rfl, rfl⟩

theorem LookupOpcode.slt : LookupOpcode.Statement .slt := by
  intro e h
  cases h
  exact ⟨rfl, rfl, rfl⟩

theorem LookupOpcode.sgt : LookupOpcode.Statement .sgt := by
  intro e h
  cases h
  exact ⟨rfl, rfl, rfl⟩

theorem LookupOpcode.eq : LookupOpcode.Statement .eq := by
  intro e h
  cases h
  exact ⟨rfl, rfl, rfl⟩

theorem LookupOpcode.iszero : LookupOpcode.Statement .iszero := by
  intro e h
  cases h
  exact ⟨rfl, rfl, rfl⟩

theorem LookupOpcode.and : LookupOpcode.Statement .and := by
  intro e h
  cases h
  exact ⟨rfl, rfl, rfl⟩

theorem LookupOpcode.or : LookupOpcode.Statement .or := by
  intro e h
  cases h
  exact ⟨rfl, rfl, rfl⟩

theorem LookupOpcode.xor : LookupOpcode.Statement .xor := by
  intro e h
  cases h
  exact ⟨rfl, rfl, rfl⟩

theorem LookupOpcode.not : LookupOpcode.Statement .not := by
  intro e h
  cases h
  exact ⟨rfl, rfl, rfl⟩

theorem LookupOpcode.byte : LookupOpcode.Statement .byte := by
  intro e h
  cases h
  exact ⟨rfl, rfl, rfl⟩

theorem LookupOpcode.shl : LookupOpcode.Statement .shl := by
  intro e h
  cases h
  exact ⟨rfl, rfl, rfl⟩

theorem LookupOpcode.shr : LookupOpcode.Statement .shr := by
  intro e h
  cases h
  exact ⟨rfl, rfl, rfl⟩

theorem LookupOpcode.sar : LookupOpcode.Statement .sar := by
  intro e h
  cases h
  exact ⟨rfl, rfl, rfl⟩

theorem LookupOpcode.sha3 : LookupOpcode.Statement .sha3 := by
  intro e h
  cases h
  exact ⟨rfl, rfl, rfl⟩

theorem LookupOpcode.address : LookupOpcode.Statement .address := by
  intro e h
  cases h
  exact ⟨rfl, rfl, rfl⟩

theorem LookupOpcode.balance : LookupOpcode.Statement .balance := by
  intro e h
  cases h
  exact ⟨rfl, rfl, rfl⟩

theorem LookupOpcode.origin : LookupOpcode.Statement .origin := by
  intro e h
  cases h
  exact ⟨rfl, rfl, rfl⟩

theorem LookupOpcode.caller : LookupOpcode.Statement .caller := by
  intro e h
  cases h
  exact ⟨rfl, rfl, rfl⟩

theorem LookupOpcode.callvalue : LookupOpcode.Statement .callvalue := by
  intro e h
  cases h
  exact ⟨rfl, rfl, rfl⟩

theorem LookupOpcode.calldataload : LookupOpcode.Statement .calldataload := by
  intro e h
  cases h
  exact ⟨rfl, rfl, rfl⟩

theorem LookupOpcode.calldatasize : LookupOpcode.Statement .calldatasize := by
  intro e h
  cases h
  exact ⟨rfl, rfl, rfl⟩

theorem LookupOpcode.calldatacopy : LookupOpcode.Statement .calldatacopy := by
  intro e h
  cases h
  exact ⟨rfl, rfl, rfl⟩

theorem LookupOpcode.codesize : LookupOpcode.Statement .codesize := by
  intro e h
  cases h
  exact ⟨rfl, rfl, rfl⟩

theorem LookupOpcode.codecopy : LookupOpcode.Statement .codecopy := by
  intro e h
  cases h
  exact ⟨rfl, rfl, rfl⟩

theorem LookupOpcode.gasprice : LookupOpcode.Statement .gasprice := by
  intro e h
  cases h
  exact ⟨rfl, rfl, rfl⟩

theorem LookupOpcode.extcodesize : LookupOpcode.Statement .extcodesize := by
  intro e h
  cases h
  exact ⟨rfl, rfl, rfl⟩

theorem LookupOpcode.extcodecopy : LookupOpcode.Statement .extcodecopy := by
  intro e h
  cases h
  exact ⟨rfl, rfl, rfl⟩

theorem LookupOpcode.returndatasize : LookupOpcode.Statement .returndatasize := by
  intro e h
  cases h
  exact ⟨rfl, rfl, rfl⟩

theorem LookupOpcode.returndatacopy : LookupOpcode.Statement .returndatacopy := by
  intro e h
  cases h
  exact ⟨rfl, rfl, rfl⟩

theorem LookupOpcode.extcodehash : LookupOpcode.Statement .extcodehash := by
  intro e h
  cases h
  exact ⟨rfl, rfl, rfl⟩

theorem LookupOpcode.blockhash : LookupOpcode.Statement .blockhash := by
  intro e h
  cases h
  exact ⟨rfl, rfl, rfl⟩

theorem LookupOpcode.coinbase : LookupOpcode.Statement .coinbase := by
  intro e h
  cases h
  exact ⟨rfl, rfl, rfl⟩

theorem LookupOpcode.timestamp : LookupOpcode.Statement .timestamp := by
  intro e h
  cases h
  exact ⟨rfl, rfl, rfl⟩

theorem LookupOpcode.number : LookupOpcode.Statement .number := by
  intro e h
  cases h
  exact ⟨rfl, rfl, rfl⟩

theorem LookupOpcode.difficulty : LookupOpcode.Statement .difficulty := by
  intro e h
  cases h
  exact ⟨rfl, rfl, rfl⟩

theorem LookupOpcode.gaslimit : LookupOpcode.Statement .gaslimit := by
  intro e h
  cases h
  exact ⟨rfl, rfl, rfl⟩

theorem LookupOpcode.pop : LookupOpcode.Statement .pop := by
  intro e h
  cases h
  exact ⟨rfl, rfl, rfl⟩

theorem LookupOpcode.mload : LookupOpcode.Statement .mload := by
  intro e h
  cases h
  exact ⟨rfl, rfl, rfl⟩

theorem LookupOpcode.mstore : LookupOpcode.Statement .mstore := by
  intro e h
  cases h
  exact ⟨rfl, rfl, rfl⟩

theorem LookupOpcode.mstore8 : LookupOpcode.Statement .mstore8 := by
  intro e h
  cases h
  exact ⟨rfl, rfl, rfl⟩

theorem LookupOpcode.sload : LookupOpcode.Statement .sload := by
  intro e h
  cases h
  exact ⟨rfl, rfl, rfl⟩

theorem LookupOpcode.sstore : LookupOpcode.Statement .sstore := by
  intro e h
  cases h
  exact ⟨rfl, rfl, rfl⟩

theorem LookupOpcode.jump : LookupOpcode.Statement .jump := by
  intro e h
  cases h
  exact ⟨rfl, rfl, rfl⟩

theorem LookupOpcode.jumpi : LookupOpcode.Statement .jumpi := by
  intro e h
  cases h
  exact ⟨rfl, rfl, rfl⟩

theorem LookupOpcode.pc : LookupOpcode.Statement .pc := by
  intro e h
  cases h
  exact ⟨rfl, rfl, rfl⟩

theorem LookupOpcode.msize : LookupOpcode.Statement .msize := by
  intro e h
  cases h
  exact ⟨rfl, rfl, rfl⟩

theorem LookupOpcode.gas : LookupOpcode.Statement .gas := by
  intro e h
  cases h
  exact ⟨rfl, rfl, rfl⟩

theorem LookupOpcode.jumpdest : LookupOpcode.Statement .jumpdest := by
  intro e h
  cases h
  exact ⟨rfl, rfl, rfl⟩

theorem LookupOpcode.push1 (imm : Word) : LookupOpcode.Statement (.push1 imm) := by
  intro e h
  cases h
  exact ⟨rfl, rfl, rfl⟩

theorem LookupOpcode.push2 (imm : Word) : LookupOpcode.Statement (.push2 imm) := by
  intro e h
  cases h
  exact ⟨rfl, rfl, rfl⟩

theorem LookupOpcode.push3 (imm : Word) : LookupOpcode.Statement (.push3 imm) := by
  intro e h
  cases h
  exact ⟨rfl, rfl, rfl⟩

theorem LookupOpcode.push4 (imm : Word) : LookupOpcode.Statement (.push4 imm) := by
  intro e h
  cases h
  exact ⟨rfl, rfl, rfl⟩

theorem LookupOpcode.push5 (imm : Word) : LookupOpcode.Statement (.push5 imm) := by
  intro e h
  cases h
  exact ⟨rfl, rfl, rfl⟩

theorem LookupOpcode.push6 (imm : Word) : LookupOpcode.Statement (.push6 imm) := by
  intro e h
  cases h
  exact ⟨rfl, rfl, rfl⟩

theorem LookupOpcode.push7 (imm : Word) : LookupOpcode.Statement (.push7 imm) := by
  intro e h
  cases h
  exact ⟨rfl, rfl, rfl⟩

theorem LookupOpcode.push8 (imm : Word) : LookupOpcode.Statement (.push8 imm) := by
  intro e h
  cases h
  exact ⟨rfl, rfl, rfl⟩

theorem LookupOpcode.push9 (imm : Word) : LookupOpcode.Statement (.push9 imm) := by
  intro e h
  cases h
  exact ⟨rfl, rfl, rfl⟩

theorem LookupOpcode.push10 (imm : Word) : LookupOpcode.Statement (.push10 imm) := by
  intro e h
  cases h
  exact ⟨rfl, rfl, rfl⟩

theorem LookupOpcode.push11 (imm : Word) : LookupOpcode.Statement (.push11 imm) := by
  intro e h
  cases h
  exact ⟨rfl, rfl, rfl⟩

theorem LookupOpcode.push12 (imm : Word) : LookupOpcode.Statement (.push12 imm) := by
  intro e h
  cases h
  exact ⟨rfl, rfl, rfl⟩

theorem LookupOpcode.push13 (imm : Word) : LookupOpcode.Statement (.push13 imm) := by
  intro e h
  cases h
  exact ⟨rfl, rfl, rfl⟩

theorem LookupOpcode.push14 (imm : Word) : LookupOpcode.Statement (.push14 imm) := by
  intro e h
  cases h
  exact ⟨rfl, rfl, rfl⟩

theorem LookupOpcode.push15 (imm : Word) : LookupOpcode.Statement (.push15 imm) := by
  intro e h
  cases h
  exact ⟨rfl, rfl, rfl⟩

theorem LookupOpcode.push16 (imm : Word) : LookupOpcode.Statement (.push16 imm) := by
  intro e h
  cases h
  exact ⟨rfl, rfl, rfl⟩

theorem LookupOpcode.push17 (imm : Word) : LookupOpcode.Statement (.push17 imm) := by
  intro e h
  cases h
  exact ⟨rfl, rfl, rfl⟩

theorem LookupOpcode.push18 (imm : Word) : LookupOpcode.Statement (.push18 imm) := by
  intro e h
  cases h
  exact ⟨rfl, rfl, rfl⟩

theorem LookupOpcode.push19 (imm : Word) : LookupOpcode.Statement (.push19 imm) := by
  intro e h
  cases h
  exact ⟨rfl, rfl, rfl⟩

theorem LookupOpcode.push20 (imm : Word) : LookupOpcode.Statement (.push20 imm) := by
  intro e h
  cases h
  exact ⟨rfl, rfl, rfl⟩

theorem LookupOpcode.push21 (imm : Word) : LookupOpcode.Statement (.push21 imm) := by
  intro e h
  cases h
  exact ⟨rfl, rfl, rfl⟩

theorem LookupOpcode.push22 (imm : Word) : LookupOpcode.Statement (.push22 imm) := by
  intro e h
  cases h
  exact ⟨rfl, rfl, rfl⟩

theorem LookupOpcode.push23 (imm : Word) : LookupOpcode.Statement (.push23 imm) := by
  intro e h
  cases h
  exact ⟨rfl, rfl, rfl⟩

theorem LookupOpcode.push24 (imm : Word) : LookupOpcode.Statement (.push24 imm) := by
  intro e h
  cases h
  exact ⟨rfl, rfl, rfl⟩

theorem LookupOpcode.push25 (imm : Word) : LookupOpcode.Statement (.push25 imm) := by
  intro e h
  cases h
  exact ⟨rfl, rfl, rfl⟩

theorem LookupOpcode.push26 (imm : Word) : LookupOpcode.Statement (.push26 imm) := by
  intro e h
  cases h
  exact ⟨rfl, rfl, rfl⟩

theorem LookupOpcode.push27 (imm : Word) : LookupOpcode.Statement (.push27 imm) := by
  intro e h
  cases h
  exact ⟨rfl, rfl, rfl⟩

theorem LookupOpcode.push28 (imm : Word) : LookupOpcode.Statement (.push28 imm) := by
  intro e h
  cases h
  exact ⟨rfl, rfl, rfl⟩

theorem LookupOpcode.push29 (imm : Word) : LookupOpcode.Statement (.push29 imm) := by
  intro e h
  cases h
  exact ⟨rfl, rfl, rfl⟩

theorem LookupOpcode.push30 (imm : Word) : LookupOpcode.Statement (.push30 imm) := by
  intro e h
  cases h
  exact ⟨rfl, rfl, rfl⟩

theorem LookupOpcode.push31 (imm : Word) : LookupOpcode.Statement (.push31 imm) := by
  intro e h
  cases h
  exact ⟨rfl, rfl, rfl⟩

theorem LookupOpcode.push32 (imm : Word) : LookupOpcode.Statement (.push32 imm) := by
  intro e h
  cases h
  exact ⟨rfl, rfl, rfl⟩

theorem LookupOpcode.dup1 : LookupOpcode.Statement .dup1 := by
  intro e h
  cases h
  exact ⟨rfl, rfl, rfl⟩

theorem LookupOpcode.dup2 : LookupOpcode.Statement .dup2 := by
  intro e h
  cases h
  exact ⟨rfl, rfl, rfl⟩

theorem LookupOpcode.dup3 : LookupOpcode.Statement .dup3 := by
  intro e h
  cases h
  exact ⟨rfl, rfl, rfl⟩

theorem LookupOpcode.dup4 : LookupOpcode.Statement .dup4 := by
  intro e h
  cases h
  exact ⟨rfl, rfl, rfl⟩

theorem LookupOpcode.dup5 : LookupOpcode.Statement .dup5 := by
  intro e h
  cases h
  exact ⟨rfl, rfl, rfl⟩

theorem LookupOpcode.dup6 : LookupOpcode.Statement .dup6 := by
  intro e h
  cases h
  exact ⟨rfl, rfl, rfl⟩

theorem LookupOpcode.dup7 : LookupOpcode.Statement .dup7 := by
  intro e h
  cases h
  exact ⟨rfl, rfl, rfl⟩

theorem LookupOpcode.dup8 : LookupOpcode.Statement .dup8 := by
  intro e h
  cases h
  exact ⟨rfl, rfl, rfl⟩

theorem LookupOpcode.dup9 : LookupOpcode.Statement .dup9 := by
  intro e h
  cases h
  exact ⟨rfl, rfl, rfl⟩

theorem LookupOpcode.dup10 : LookupOpcode.Statement .dup10 := by
  intro e h
  cases h
  exact ⟨rfl, rfl, rfl⟩

theorem LookupOpcode.dup11 : LookupOpcode.Statement .dup11 := by
  intro e h
  cases h
  exact ⟨rfl, rfl, rfl⟩

theorem LookupOpcode.dup12 : LookupOpcode.Statement .dup12 := by
  intro e h
  cases h
  exact ⟨rfl, rfl, rfl⟩

theorem LookupOpcode.dup13 : LookupOpcode.Statement .dup13 := by
  intro e h
  cases h
  exact ⟨rfl, rfl, rfl⟩

theorem LookupOpcode.dup14 : LookupOpcode.Statement .dup14 := by
  intro e h
  cases h
  exact ⟨rfl, rfl, rfl⟩

theorem LookupOpcode.dup15 : LookupOpcode.Statement .dup15 := by
  intro e h
  cases h
  exact ⟨rfl, rfl, rfl⟩

theorem LookupOpcode.dup16 : LookupOpcode.Statement .dup16 := by
  intro e h
  cases h
  exact ⟨rfl, rfl, rfl⟩

theorem LookupOpcode.swap1 : LookupOpcode.Statement .swap1 := by
  intro e h
  cases h
  exact ⟨rfl, rfl, rfl⟩

theorem LookupOpcode.swap2 : LookupOpcode.Statement .swap2 := by
  intro e h
  cases h
  exact ⟨rfl, rfl, rfl⟩

theorem LookupOpcode.swap3 : LookupOpcode.Statement .swap3 := by
  intro e h
  cases h
  exact ⟨rfl, rfl, rfl⟩

theorem LookupOpcode.swap4 : LookupOpcode.Statement .swap4 := by
  intro e h
  cases h
  exact ⟨rfl, rfl, rfl⟩

theorem LookupOpcode.swap5 : LookupOpcode.Statement .swap5 := by
  intro e h
  cases h
  exact ⟨rfl, rfl, rfl⟩

theorem LookupOpcode.swap6 : LookupOpcode.Statement .swap6 := by
  intro e h
  cases h
  exact ⟨rfl, rfl, rfl⟩

theorem LookupOpcode.swap7 : LookupOpcode.Statement .swap7 := by
  intro e h
  cases h
  exact ⟨rfl, rfl, rfl⟩

theorem LookupOpcode.swap8 : LookupOpcode.Statement .swap8 := by
  intro e h
  cases h
  exact ⟨rfl, rfl, rfl⟩

theorem LookupOpcode.swap9 : LookupOpcode.Statement .swap9 := by
  intro e h
  cases h
  exact ⟨rfl, rfl, rfl⟩

theorem LookupOpcode.swap10 : LookupOpcode.Statement .swap10 := by
  intro e h
  cases h
  exact ⟨rfl, rfl, rfl⟩

theorem LookupOpcode.swap11 : LookupOpcode.Statement .swap11 := by
  intro e h
  cases h
  exact ⟨rfl, rfl, rfl⟩

theorem LookupOpcode.swap12 : LookupOpcode.Statement .swap12 := by
  intro e h
  cases h
  exact ⟨rfl, rfl, rfl⟩

theorem LookupOpcode.swap13 : LookupOpcode.Statement .swap13 := by
  intro e h
  cases h
  exact ⟨rfl, rfl, rfl⟩

theorem LookupOpcode.swap14 : LookupOpcode.Statement .swap14 := by
  intro e h
  cases h
  exact ⟨rfl, rfl, rfl⟩

theorem LookupOpcode.swap15 : LookupOpcode.Statement .swap15 := by
  intro e h
  cases h
  exact ⟨rfl, rfl, rfl⟩

theorem LookupOpcode.swap16 : LookupOpcode.Statement .swap16 := by
  intro e h
  cases h
  exact ⟨rfl, rfl, rfl⟩

theorem LookupOpcode.log0 : LookupOpcode.Statement .log0 := by
  intro e h
  cases h
  exact ⟨rfl, rfl, rfl⟩

theorem LookupOpcode.log1 : LookupOpcode.Statement .log1 := by
  intro e h
  cases h
  exact ⟨rfl, rfl, rfl⟩

theorem LookupOpcode.log2 : LookupOpcode.Statement .log2 := by
  intro e h
  cases h
  exact ⟨rfl, rfl, rfl⟩

theorem LookupOpcode.log3 : LookupOpcode.Statement .log3 := by
  intro e h
  cases h
  exact ⟨rfl, rfl, rfl⟩

theorem LookupOpcode.log4 : LookupOpcode.Statement .log4 := by
  intro e h
  cases h
  exact ⟨rfl, rfl, rfl⟩

theorem LookupOpcode.create : LookupOpcode.Statement .create := by
  intro e h
  cases h
  exact ⟨rfl, rfl, rfl⟩

theorem LookupOpcode.call : LookupOpcode.Statement .call := by
  intro e h
  cases h
  exact ⟨rfl, rfl, rfl⟩

theorem LookupOpcode.callcode : LookupOpcode.Statement .callcode := by
  intro e h
  cases h
  exact ⟨rfl, rfl, rfl⟩

theorem LookupOpcode.return_ : LookupOpcode.Statement .return_ := by
  intro e h
  cases h
  exact ⟨rfl, rfl, rfl⟩

theorem LookupOpcode.delegatecall : LookupOpcode.Statement .delegatecall := by
  intro e h
  cases h
  exact ⟨rfl, rfl, rfl⟩

theorem LookupOpcode.create2 : LookupOpcode.Statement .create2 := by
  intro e h
  cases h
  exact ⟨rfl, rfl, rfl⟩

theorem LookupOpcode.staticcall : LookupOpcode.Statement .staticcall := by
  intro e h
  cases h
  exact ⟨rfl, rfl, rfl⟩

theorem LookupOpcode.revert : LookupOpcode.Statement .revert := by
  intro e h
  cases h
  exact ⟨rfl, rfl, rfl⟩

theorem LookupOpcode.selfdestruct : LookupOpcode.Statement .selfdestruct := by
  intro e h
  cases h
  exact ⟨rfl, rfl, rfl⟩

theorem LookupOpcode.neg : LookupOpcode.Statement .neg := by
  intro e h
  cases h

theorem LookupOpcode.isneg : LookupOpcode.Statement .isneg := by
  intro e h
  cases h

theorem LookupOpcode.rol : LookupOpcode.Statement .rol := by
  intro e h
  cases h

theorem LookupOpcode.ror : LookupOpcode.Statement .ror := by
  intro e h
  cases h

theorem EncodeLength.stop : EncodeLength.Statement .stop := rfl

theorem EncodeLength.add : EncodeLength.Statement .add := rfl

theorem EncodeLength.mul : EncodeLength.Statement .mul := rfl

theorem EncodeLength.sub : EncodeLength.Statement .sub := rfl

theorem EncodeLength.div : EncodeLength.Statement .div := rfl

theorem EncodeLength.sdiv : EncodeLength.Statement .sdiv := rfl

theorem EncodeLength.mod : EncodeLength.Statement .mod := rfl

theorem EncodeLength.smod : EncodeLength.Statement .smod := rfl

theorem EncodeLength.addmod : EncodeLength.Statement .addmod := rfl

theorem EncodeLength.mulmod : EncodeLength.Statement .mulmod := rfl

theorem EncodeLength.exp : EncodeLength.Statement .exp := rfl

theorem EncodeLength.signextend : EncodeLength.Statement .signextend := rfl

theorem EncodeLength.lt : EncodeLength.Statement .lt := rfl

theorem EncodeLength.gt : EncodeLength.Statement .gt := rfl

theorem EncodeLength.slt : EncodeLength.Statement .slt := rfl

theorem EncodeLength.sgt : EncodeLength.Statement .sgt := rfl

theorem EncodeLength.eq : EncodeLength.Statement .eq := rfl

theorem EncodeLength.iszero : EncodeLength.Statement .iszero := rfl

theorem EncodeLength.and : EncodeLength.Statement .and := rfl

theorem EncodeLength.or : EncodeLength.Statement .or := rfl

theorem EncodeLength.xor : EncodeLength.Statement .xor := rfl

theorem EncodeLength.not : EncodeLength.Statement .not := rfl

theorem EncodeLength.byte : EncodeLength.Statement .byte := rfl

theorem EncodeLength.shl : EncodeLength.Statement .shl := rfl

theorem EncodeLength.shr : EncodeLength.Statement .shr := rfl

theorem EncodeLength.sar : EncodeLength.Statement .sar := rfl

theorem EncodeLength.sha3 : EncodeLength.Statement .sha3 := rfl

theorem EncodeLength.address : EncodeLength.Statement .address := rfl

theorem EncodeLength.balance : EncodeLength.Statement .balance := rfl

theorem EncodeLength.origin : EncodeLength.Statement .origin := rfl

theorem EncodeLength.caller : EncodeLength.Statement .caller := rfl

theorem EncodeLength.callvalue : EncodeLength.Statement .callvalue := rfl

theorem EncodeLength.calldataload : EncodeLength.Statement .calldataload := rfl

theorem EncodeLength.calldatasize : EncodeLength.Statement .calldatasize := rfl

theorem EncodeLength.calldatacopy : EncodeLength.Statement .calldatacopy := rfl

theorem EncodeLength.codesize : EncodeLength.Statement .codesize := rfl

theorem EncodeLength.codecopy : EncodeLength.Statement .codecopy := rfl

theorem EncodeLength.gasprice : EncodeLength.Statement .gasprice := rfl

theorem EncodeLength.extcodesize : EncodeLength.Statement .extcodesize := rfl

theorem EncodeLength.extcodecopy : EncodeLength.Statement .extcodecopy := rfl

theorem EncodeLength.returndatasize : EncodeLength.Statement .returndatasize := rfl

theorem EncodeLength.returndatacopy : EncodeLength.Statement .returndatacopy := rfl

theorem EncodeLength.extcodehash : EncodeLength.Statement .extcodehash := rfl

theorem EncodeLength.blockhash : EncodeLength.Statement .blockhash := rfl

theorem EncodeLength.coinbase : EncodeLength.Statement .coinbase := rfl

theorem EncodeLength.timestamp : EncodeLength.Statement .timestamp := rfl

theorem EncodeLength.number : EncodeLength.Statement .number := rfl

theorem EncodeLength.difficulty : EncodeLength.Statement .difficulty := rfl

theorem EncodeLength.gaslimit : EncodeLength.Statement .gaslimit := rfl

theorem EncodeLength.pop : EncodeLength.Statement .pop := rfl

theorem EncodeLength.mload : EncodeLength.Statement .mload := rfl

theorem EncodeLength.mstore : EncodeLength.Statement .mstore := rfl

theorem EncodeLength.mstore8 : EncodeLength.Statement .mstore8 := rfl

theorem EncodeLength.sload : EncodeLength.Statement .sload := rfl

theorem EncodeLength.sstore : EncodeLength.Statement .sstore := rfl

theorem EncodeLength.jump : EncodeLength.Statement .jump := rfl

theorem EncodeLength.jumpi : EncodeLength.Statement .jumpi := rfl

theorem EncodeLength.pc : EncodeLength.Statement .pc := rfl

theorem EncodeLength.msize : EncodeLength.Statement .msize := rfl

theorem EncodeLength.gas : EncodeLength.Statement .gas := rfl

theorem EncodeLength.jumpdest : EncodeLength.Statement .jumpdest := rfl

theorem EncodeLength.push1 (imm : Word) : EncodeLength.Statement (.push1 imm) := rfl

theorem EncodeLength.push2 (imm : Word) : EncodeLength.Statement (.push2 imm) := rfl

theorem EncodeLength.push3 (imm : Word) : EncodeLength.Statement (.push3 imm) := rfl

theorem EncodeLength.push4 (imm : Word) : EncodeLength.Statement (.push4 imm) := rfl

theorem EncodeLength.push5 (imm : Word) : EncodeLength.Statement (.push5 imm) := rfl

theorem EncodeLength.push6 (imm : Word) : EncodeLength.Statement (.push6 imm) := rfl

theorem EncodeLength.push7 (imm : Word) : EncodeLength.Statement (.push7 imm) := rfl

theorem EncodeLength.push8 (imm : Word) : EncodeLength.Statement (.push8 imm) := rfl

theorem EncodeLength.push9 (imm : Word) : EncodeLength.Statement (.push9 imm) := rfl

theorem EncodeLength.push10 (imm : Word) : EncodeLength.Statement (.push10 imm) := rfl

theorem EncodeLength.push11 (imm : Word) : EncodeLength.Statement (.push11 imm) := rfl

theorem EncodeLength.push12 (imm : Word) : EncodeLength.Statement (.push12 imm) := rfl

theorem EncodeLength.push13 (imm : Word) : EncodeLength.Statement (.push13 imm) := rfl

theorem EncodeLength.push14 (imm : Word) : EncodeLength.Statement (.push14 imm) := rfl

theorem EncodeLength.push15 (imm : Word) : EncodeLength.Statement (.push15 imm) := rfl

theorem EncodeLength.push16 (imm : Word) : EncodeLength.Statement (.push16 imm) := rfl

theorem EncodeLength.push17 (imm : Word) : EncodeLength.Statement (.push17 imm) := rfl

theorem EncodeLength.push18 (imm : Word) : EncodeLength.Statement (.push18 imm) := rfl

theorem EncodeLength.push19 (imm : Word) : EncodeLength.Statement (.push19 imm) := rfl

theorem EncodeLength.push20 (imm : Word) : EncodeLength.Statement (.push20 imm) := rfl

theorem EncodeLength.push21 (imm : Word) : EncodeLength.Statement (.push21 imm) := rfl

theorem EncodeLength.push22 (imm : Word) : EncodeLength.Statement (.push22 imm) := rfl

theorem EncodeLength.push23 (imm : Word) : EncodeLength.Statement (.push23 imm) := rfl

theorem EncodeLength.push24 (imm : Word) : EncodeLength.Statement (.push24 imm) := rfl

theorem EncodeLength.push25 (imm : Word) : EncodeLength.Statement (.push25 imm) := rfl

theorem EncodeLength.push26 (imm : Word) : EncodeLength.Statement (.push26 imm) := rfl

theorem EncodeLength.push27 (imm : Word) : EncodeLength.Statement (.push27 imm) := rfl

theorem EncodeLength.push28 (imm : Word) : EncodeLength.Statement (.push28 imm) := rfl

theorem EncodeLength.push29 (imm : Word) : EncodeLength.Statement (.push29 imm) := rfl

theorem EncodeLength.push30 (imm : Word) : EncodeLength.Statement (.push30 imm) := rfl

theorem EncodeLength.push31 (imm : Word) : EncodeLength.Statement (.push31 imm) := rfl

theorem EncodeLength.push32 (imm : Word) : EncodeLength.Statement (.push32 imm) := rfl

theorem EncodeLength.dup1 : EncodeLength.Statement .dup1 := rfl

theorem EncodeLength.dup2 : EncodeLength.Statement .dup2 := rfl

theorem EncodeLength.dup3 : EncodeLength.Statement .dup3 := rfl

theorem EncodeLength.dup4 : EncodeLength.Statement .dup4 := rfl

theorem EncodeLength.dup5 : EncodeLength.Statement .dup5 := rfl

theorem EncodeLength.dup6 : EncodeLength.Statement .dup6 := rfl

theorem EncodeLength.dup7 : EncodeLength.Statement .dup7 := rfl

theorem EncodeLength.dup8 : EncodeLength.Statement .dup8 := rfl

theorem EncodeLength.dup9 : EncodeLength.Statement .dup9 := rfl

theorem EncodeLength.dup10 : EncodeLength.Statement .dup10 := rfl

theorem EncodeLength.dup11 : EncodeLength.Statement .dup11 := rfl

theorem EncodeLength.dup12 : EncodeLength.Statement .dup12 := rfl

theorem EncodeLength.dup13 : EncodeLength.Statement .dup13 := rfl

theorem EncodeLength.dup14 : EncodeLength.Statement .dup14 := rfl

theorem EncodeLength.dup15 : EncodeLength.Statement .dup15 := rfl

theorem EncodeLength.dup16 : EncodeLength.Statement .dup16 := rfl

theorem EncodeLength.swap1 : EncodeLength.Statement .swap1 := rfl

theorem EncodeLength.swap2 : EncodeLength.Statement .swap2 := rfl

theorem EncodeLength.swap3 : EncodeLength.Statement .swap3 := rfl

theorem EncodeLength.swap4 : EncodeLength.Statement .swap4 := rfl

theorem EncodeLength.swap5 : EncodeLength.Statement .swap5 := rfl

theorem EncodeLength.swap6 : EncodeLength.Statement .swap6 := rfl

theorem EncodeLength.swap7 : EncodeLength.Statement .swap7 := rfl

theorem EncodeLength.swap8 : EncodeLength.Statement .swap8 := rfl

theorem EncodeLength.swap9 : EncodeLength.Statement .swap9 := rfl

theorem EncodeLength.swap10 : EncodeLength.Statement .swap10 := rfl

theorem EncodeLength.swap11 : EncodeLength.Statement .swap11 := rfl

theorem EncodeLength.swap12 : EncodeLength.Statement .swap12 := rfl

theorem EncodeLength.swap13 : EncodeLength.Statement .swap13 := rfl

theorem EncodeLength.swap14 : EncodeLength.Statement .swap14 := rfl

theorem EncodeLength.swap15 : EncodeLength.Statement .swap15 := rfl

theorem EncodeLength.swap16 : EncodeLength.Statement .swap16 := rfl

theorem EncodeLength.log0 : EncodeLength.Statement .log0 := rfl

theorem EncodeLength.log1 : EncodeLength.Statement .log1 := rfl

theorem EncodeLength.log2 : EncodeLength.Statement .log2 := rfl

theorem EncodeLength.log3 : EncodeLength.Statement .log3 := rfl

theorem EncodeLength.log4 : EncodeLength.Statement .log4 := rfl

theorem EncodeLength.create : EncodeLength.Statement .create := rfl

theorem EncodeLength.call : EncodeLength.Statement .call := rfl

theorem EncodeLength.callcode : EncodeLength.Statement .callcode := rfl

theorem EncodeLength.return_ : EncodeLength.Statement .return_ := rfl

theorem EncodeLength.delegatecall : EncodeLength.Statement .delegatecall := rfl

theorem EncodeLength.create2 : EncodeLength.Statement .create2 := rfl

theorem EncodeLength.staticcall : EncodeLength.Statement .staticcall := rfl

theorem EncodeLength.revert : EncodeLength.Statement .revert := rfl

theorem EncodeLength.selfdestruct : EncodeLength.Statement .selfdestruct := rfl

theorem EncodeLength.neg : EncodeLength.Statement .neg := rfl

theorem EncodeLength.isneg : EncodeLength.Statement .isneg := rfl

theorem EncodeLength.rol : EncodeLength.Statement .rol := rfl

theorem EncodeLength.ror : EncodeLength.Statement .ror := rfl

end Sys2Proof.Laws
end

