-- ==== Sys2Proof/Laws/Ops.lean ====
section
/-!
SUPPORT. What the shared operations of a step can do, said once: the checks (44_seq_stack_control.md R170 steps 3 to 6), the
completion of an effect, the handoff.
-/

namespace Sys2Proof.Machine

/-- The checks fail with the kinds of steps 3 to 6, in their order, or pass. -/
theorem checks_cases (s : State) (e : OpInfo) :
    (s.isActive e.value = false ∧ s.checks e = some .illegalOperation) ∨
    (s.isActive e.value = true ∧ s.sp < e.pops ∧ s.checks e = some .stackUnderflow) ∨
    (s.isActive e.value = true ∧ e.pops ≤ s.sp ∧ s.stackLimit < s.sp - e.pops + e.pushes ∧
      s.checks e = some .stackOverflow) ∨
    (s.isActive e.value = true ∧ e.pops ≤ s.sp ∧ s.sp - e.pops + e.pushes ≤ s.stackLimit ∧ s.host.meter = some 0 ∧
      s.checks e = some .outOfResource) ∨
    (s.isActive e.value = true ∧ e.pops ≤ s.sp ∧ s.sp - e.pops + e.pushes ≤ s.stackLimit ∧ s.host.meter ≠ some 0 ∧
      s.checks e = none) := by
  unfold State.checks State.meterExhausted
  by_cases h1 : s.isActive e.value = false
  · exact .inl ⟨h1, by simp [h1]⟩
  · have h1' : s.isActive e.value = true := by simpa using h1
    refine .inr ?_
    by_cases h2 : s.sp < e.pops
    · exact .inl ⟨h1', h2, by simp [h1', h2]⟩
    · refine .inr ?_
      by_cases h3 : s.sp - e.pops + e.pushes > s.stackLimit
      · exact .inl ⟨h1', by omega, h3, by simp [h1', h2, h3]⟩
      · refine .inr ?_
        by_cases h4 : s.host.meter = some 0
        · exact .inl ⟨h1', by omega, by omega, h4, by simp [h1', h2, h3, h4]⟩
        · exact .inr ⟨h1', by omega, by omega, h4, by simp [h1', h2, h3, h4]⟩

/-- An assigned opcode is active when its bit of the mask is set. -/
theorem isActive_of_lookup {s : State} {v : Byte} {e : OpInfo} (h : lookupByValue v = some e) :
    s.isActive v = s.cfg.active.getLsbD v.toNat := by
  simp [State.isActive, h]

/-- A ready opcode passes the checks. -/
theorem checks_of_ready {s : State} {e : OpInfo} {v : Byte} {pops pushes : Nat} (hl : lookupByValue v = some e)
    (hv : e.value = v) (hp : e.pops = pops) (hq : e.pushes = pushes) (h : s.Ready v pops pushes) : s.checks e = none := by
  subst hv hp hq
  obtain ⟨h1, h2, h3, h4⟩ := h
  have ha : s.isActive e.value = true := by rw [isActive_of_lookup hl]; exact h1
  have h2' : ¬ s.sp < e.pops := by unfold State.sp; omega
  have h3' : ¬ s.sp - e.pops + e.pushes > s.stackLimit := by unfold State.sp; omega
  simp [State.checks, State.meterExhausted, ha, h2', h3', h4]

/-- The room and the operands after checks that pass. -/
theorem checks_none {s : State} {e : OpInfo} (h : s.checks e = none) :
    s.isActive e.value = true ∧ e.pops ≤ s.stack.length ∧ s.stack.length - e.pops + e.pushes ≤ s.stackLimit ∧
      s.host.meter ≠ some 0 := by
  rcases checks_cases s e with c | c | c | c | c
  · rw [h] at c; cases c.2
  · rw [h] at c; cases c.2.2
  · rw [h] at c; cases c.2.2.2
  · rw [h] at c; cases c.2.2.2.2
  · exact ⟨c.1, c.2.1, c.2.2.1, c.2.2.2.1⟩

/-- What an issued opcode can do: raise the kind of a check, raise its own kind, or complete. -/
theorem issue_cases (e : OpInfo) (effect : State → Except ErrorKind State) (s : State) :
    (∃ k, s.checks e = some k ∧ issue e effect s = .next (s.raise k)) ∨
    (∃ k, s.checks e = none ∧ effect s = .error k ∧ issue e effect s = .next (s.raise k)) ∨
    (∃ t, s.checks e = none ∧ effect s = .ok t ∧ issue e effect s = .next (s.retire e.value t)) := by
  unfold issue
  cases hc : s.checks e with
  | some k => exact .inl ⟨k, rfl, rfl⟩
  | none =>
    cases hf : effect s with
    | error k => exact .inr (.inl ⟨k, rfl, rfl, rfl⟩)
    | ok t => exact .inr (.inr ⟨t, rfl, rfl, rfl⟩)

/-- What an opcode of class EXT can do: raise the kind of a check, or hand off. -/
theorem handoff_cases (e : OpInfo) (s : State) :
    (∃ k, s.checks e = some k ∧ handoff e s = .next (s.raise k)) ∨
    (s.checks e = none ∧ handoff e s = .next { s with ext := true, host := s.host.tick }) := by
  unfold handoff
  cases s.checks e with
  | some k => exact .inl ⟨k, rfl, rfl⟩
  | none => exact .inr ⟨rfl, rfl⟩

/-- An opcode whose checks pass and whose effect completes. -/
theorem issue_ok {e : OpInfo} {effect : State → Except ErrorKind State} {s t : State} (hc : s.checks e = none)
    (hf : effect s = .ok t) : issue e effect s = .next (s.retire e.value t) := by
  simp [issue, hc, hf]

/-- An opcode whose checks pass and whose effect raises. -/
theorem issue_error {e : OpInfo} {effect : State → Except ErrorKind State} {s : State} {k : ErrorKind}
    (hc : s.checks e = none) (hf : effect s = .error k) : issue e effect s = .next (s.raise k) := by
  simp [issue, hc, hf]

/-- An opcode whose check fails. -/
theorem issue_check {e : OpInfo} {effect : State → Except ErrorKind State} {s : State} {k : ErrorKind}
    (hc : s.checks e = some k) : issue e effect s = .next (s.raise k) := by
  simp [issue, hc]

theorem handoff_ok {e : OpInfo} {s : State} (hc : s.checks e = none) :
    handoff e s = .next { s with ext := true, host := s.host.tick } := by
  simp [handoff, hc]

end Sys2Proof.Machine
end

