-- ==== Sys2Proof/Laws/Alu.lean ====
section
/-!
SUPPORT. The rules of the ALU instructions from their functions (44_seq_stack_control.md R171, 40_alu_arithmetic.md R114), and
the small lemmas of the functions.
-/

namespace Sys2Proof.Machine

/-- The rule of an instruction with one operand, from its function `g`, equal to `f` everywhere. -/
theorem unaryRule_of {i : Instr} {v : Byte} {f : Word → Word} (e : OpInfo) (g : Word → Word) (henc : encode i = [v])
    (halu : ∀ a b c, alu v a b c = .result (g a)) (hx : ∀ s, exec i s = issue e (unaryEffect g) s)
    (hl : lookupByValue v = some e) (hv : e.value = v) (hp : e.pops = 1) (hq : e.pushes = 1) (hg : ∀ a, g a = f a) :
    UnaryRule i v f := by
  obtain rfl : g = f := funext hg
  refine ⟨henc, halu, fun s a rest hs hr => ?_⟩
  rw [hx, issue_ok (checks_of_ready hl hv hp hq hr) (by unfold unaryEffect; rw [hs])]
  subst hv
  rfl

/-- The rule of an instruction with two operands. -/
theorem binaryRule_of {i : Instr} {v : Byte} {f : Word → Word → Word} (e : OpInfo) (g : Word → Word → Word)
    (henc : encode i = [v]) (halu : ∀ a b c, alu v a b c = .result (g a b))
    (hx : ∀ s, exec i s = issue e (binaryEffect g) s) (hl : lookupByValue v = some e) (hv : e.value = v) (hp : e.pops = 2)
    (hq : e.pushes = 1) (hg : ∀ a b, g a b = f a b) : BinaryRule i v f := by
  obtain rfl : g = f := by funext a b; exact hg a b
  refine ⟨henc, halu, fun s a b rest hs hr => ?_⟩
  rw [hx, issue_ok (checks_of_ready hl hv hp hq hr) (by unfold binaryEffect; rw [hs])]
  subst hv
  rfl

/-- The rule of an instruction with three operands. -/
theorem ternaryRule_of {i : Instr} {v : Byte} {f : Word → Word → Word → Word} (e : OpInfo) (g : Word → Word → Word → Word)
    (henc : encode i = [v]) (halu : ∀ a b c, alu v a b c = .result (g a b c))
    (hx : ∀ s, exec i s = issue e (ternaryEffect g) s) (hl : lookupByValue v = some e) (hv : e.value = v) (hp : e.pops = 3)
    (hq : e.pushes = 1) (hg : ∀ a b c, g a b c = f a b c) : TernaryRule i v f := by
  obtain rfl : g = f := by funext a b c; exact hg a b c
  refine ⟨henc, halu, fun s a b c rest hs hr => ?_⟩
  rw [hx, issue_ok (checks_of_ready hl hv hp hq hr) (by unfold ternaryEffect; rw [hs])]
  subst hv
  rfl

/-- The rule of a function of the port. -/
theorem portRule_of {i : Instr} {v : Byte} {f : Word → Word → Word} (g : Word → Word → Word) (hd : decodeSelect v = some i)
    (hu : decode [v] = .unassigned v) (halu : ∀ a b c, alu v a b c = .result (g a b))
    (hx : ∀ s : State, exec i s = .next (s.answerPort (alu v s.host.a s.host.b s.host.c))) (hg : ∀ a b, g a b = f a b) :
    PortRule i v f := by
  obtain rfl : g = f := by funext a b; exact hg a b
  exact ⟨hd, hu, halu, fun s => by rw [hx, halu]; rfl⟩

/-- `word` of a natural number is that number modulo 2^256 (R13). -/
theorem word_natCast (n : Nat) : word (n : Int) = BitVec.ofNat 256 n := by simp [word]

/-- A word is the zero word when its unsigned value is 0. -/
theorem eq_zero_iff_toNat (w : Word) : w = 0 ↔ w.toNat = 0 := by
  constructor
  · rintro rfl
    rfl
  · intro h
    exact BitVec.eq_of_toNat_eq (by simpa using h)

/-- Bit 255 is the sign bit (R11). -/
theorem getLsbD_255 (w : Word) : w.getLsbD 255 = w.msb := by simp [BitVec.msb_eq_getLsbD_last]

/-- Square-and-multiply computes the power modulo 2^256 (R110). -/
theorem powLoop_mod (fuel base e acc : Nat) (he : e < 2 ^ fuel) :
    powLoop fuel base e acc % 2 ^ 256 = acc * base ^ e % 2 ^ 256 := by
  induction fuel generalizing base e acc with
  | zero =>
    simp at he
    subst he
    simp [powLoop]
  | succ n ih =>
    rw [powLoop, ih _ _ _ (by omega)]
    show _ ≡ _ [MOD 2 ^ 256]
    have key : base ^ e = base ^ (e % 2) * (base * base) ^ (e / 2) := by
      rw [← pow_two, ← pow_mul, ← pow_add]
      congr 1
      omega
    have sq : (base * base % 2 ^ 256) ^ (e / 2) ≡ (base * base) ^ (e / 2) [MOD 2 ^ 256] := (Nat.mod_modEq _ _).pow _
    rw [key]
    rcases Nat.mod_two_eq_zero_or_one e with h | h
    · rw [h]
      simp only [pow_zero, one_mul]
      exact Nat.ModEq.mul_left _ sq
    · rw [h]
      simp only [pow_one, if_true, ← mul_assoc]
      exact Nat.ModEq.mul (Nat.mod_modEq _ _) sq

end Sys2Proof.Machine
end

