-- ==== Sys2Proof/Laws/Bytes.lean ====
section
/-!
SUPPORT. Bytes of a word and words of bytes: each is the inverse of the other (00_scope.md R11, R15; 20_memory.md R64;
40_alu_arithmetic.md R100).
-/

namespace Sys2Proof.Machine

/-- The accumulator of `be` stands in front of the digits. -/
theorem beFrom_eq (acc : Nat) (d : List Byte) : beFrom acc d = acc * 256 ^ d.length + be d := by
  induction d generalizing acc with
  | nil => simp [be, beFrom]
  | cons b bs ih =>
    rw [be, beFrom, beFrom, ih, ih (0 * 256 + b.toNat), List.length_cons, pow_succ]
    ring

/-- `be` of a nonempty sequence: its first byte is the most significant. -/
theorem be_cons (b : Byte) (bs : List Byte) : be (b :: bs) = b.toNat * 256 ^ bs.length + be bs := by
  rw [be, beFrom, beFrom_eq]
  simp

theorem be_lt (d : List Byte) : be d < 256 ^ d.length := by
  induction d with
  | nil => simp [be, beFrom]
  | cons b bs ih =>
    rw [be_cons, List.length_cons, pow_succ]
    have := b.isLt
    nlinarith

theorem toNat_packBytes (d : List Byte) : (packBytes d).toNat = be d % 2 ^ 256 := by
  simp [packBytes, word]

theorem toNat_packBytes_of_le {d : List Byte} (h : d.length ≤ 32) : (packBytes d).toNat = be d := by
  rw [toNat_packBytes]
  refine Nat.mod_eq_of_lt (Nat.lt_of_lt_of_le (be_lt d) ?_)
  calc 256 ^ d.length ≤ 256 ^ 32 := Nat.pow_le_pow_right (by decide) h
    _ = 2 ^ 256 := by norm_num

theorem toNat_byteLE (w : Word) (k : Nat) : (byteLE w k).toNat = w.toNat / 256 ^ k % 256 := by
  have h : (256 : Nat) ^ k = 2 ^ (8 * k) := by rw [pow_mul]; norm_num
  simp [byteLE, BitVec.extractLsb'_toNat, Nat.shiftRight_eq_div_pow, h]

/-- The bytes of a big-endian number, by their place from the end. -/
theorem be_digit (d : List Byte) (j : Nat) (h : j < d.length) :
    be d / 256 ^ (d.length - 1 - j) % 256 = (d.getD j 0).toNat := by
  induction d generalizing j with
  | nil => cases h
  | cons b bs ih =>
    have hb := b.isLt
    have hp : 0 < 256 ^ bs.length := Nat.pos_of_ne_zero (by positivity)
    cases j with
    | zero =>
      rw [be_cons, List.length_cons, show bs.length + 1 - 1 - 0 = bs.length by omega, Nat.add_comm, Nat.add_mul_div_right _ _ hp,
        Nat.div_eq_of_lt (be_lt bs)]
      simp only [List.getD_cons_zero]
      omega
    | succ j =>
      have hj : j < bs.length := by simpa using h
      rw [be_cons, List.length_cons, show bs.length + 1 - 1 - (j + 1) = bs.length - 1 - j by omega, List.getD_cons_succ,
        ← ih j hj]
      have hs : (256 : Nat) ^ bs.length = 256 ^ (bs.length - 1 - j) * (256 * 256 ^ j) := by
        rw [← pow_succ', ← pow_add]
        congr 1
        omega
      have hq : 0 < 256 ^ (bs.length - 1 - j) := Nat.pos_of_ne_zero (by positivity)
      rw [hs, show b.toNat * (256 ^ (bs.length - 1 - j) * (256 * 256 ^ j)) = 256 ^ (bs.length - 1 - j) * (256 * (b.toNat * 256 ^ j)) by ring,
        Nat.add_comm, Nat.add_mul_div_left _ _ hq, Nat.add_mul_mod_self_left]

/-- The bytes given are the least significant bytes of the word (R100). -/
theorem byteLE_packBytes {d : List Byte} (h : d.length ≤ 32) {j : Nat} (hj : j < d.length) :
    byteLE (packBytes d) (d.length - 1 - j) = d.getD j 0 := by
  apply BitVec.eq_of_toNat_eq
  rw [toNat_byteLE, toNat_packBytes_of_le h, be_digit d j hj]

/-- The other bytes of the word are 0x00 (R100). -/
theorem byteLE_packBytes_high {d : List Byte} (h : d.length ≤ 32) {k : Nat} (hk : d.length ≤ k) :
    byteLE (packBytes d) k = 0 := by
  apply BitVec.eq_of_toNat_eq
  rw [toNat_byteLE, toNat_packBytes_of_le h, Nat.div_eq_of_lt]
  · rfl
  · exact Nat.lt_of_lt_of_le (be_lt d) (Nat.pow_le_pow_right (by decide) hk)

/-- Words with equal bytes are equal (R11). -/
theorem eq_of_byteLE {w x : Word} (h : ∀ k, k < 32 → byteLE w k = byteLE x k) : w = x := by
  apply BitVec.eq_of_getLsbD_eq
  intro i hi
  have := congrArg (fun b : Byte => b.getLsbD (i % 8)) (h (i / 8) (by omega))
  simp only [byteLE, BitVec.getLsbD_extractLsb'] at this
  rw [show 8 * (i / 8) + i % 8 = i by omega] at this
  simpa [Nat.mod_lt] using this

theorem wordBytesBE_length (n : Nat) (w : Word) : (wordBytesBE n w).length = n := by simp [wordBytesBE]

theorem wordBytesBE_getD {n j : Nat} (w : Word) (h : j < n) : (wordBytesBE n w).getD j 0 = byteLE w (n - 1 - j) := by
  simp [wordBytesBE, List.getD_eq_getElem?_getD, h]

theorem bytes32_length (w : Word) : (bytes32 w).length = 32 := by simp [bytes32]

theorem bytes32_getD {j : Nat} (w : Word) (h : j < 32) : (bytes32 w).getD j 0 = byteBE w j := by
  simp [bytes32, List.getD_eq_getElem?_getD, h]

/-- A word that fits in `n` bytes is the word of those bytes (R72, R100). -/
theorem packBytes_wordBytesBE {n : Nat} {w : Word} (hn : n ≤ 32) (hw : w.toNat < 256 ^ n) :
    packBytes (wordBytesBE n w) = w := by
  have hl := wordBytesBE_length n w
  refine eq_of_byteLE fun k hk => ?_
  by_cases h : k < n
  · have := byteLE_packBytes (d := wordBytesBE n w) (by omega) (j := n - 1 - k) (by omega)
    rw [hl, wordBytesBE_getD w (by omega), show n - 1 - (n - 1 - k) = k by omega] at this
    exact this
  · rw [byteLE_packBytes_high (by omega) (by omega)]
    apply BitVec.eq_of_toNat_eq
    rw [toNat_byteLE, Nat.div_eq_of_lt]
    · rfl
    · exact Nat.lt_of_lt_of_le hw (Nat.pow_le_pow_right (by decide) (by omega))

/-- The canonical form determines the word (R64). -/
theorem packBytes_bytes32 (w : Word) : packBytes (bytes32 w) = w := by
  have : bytes32 w = wordBytesBE 32 w := rfl
  rw [this]
  refine packBytes_wordBytesBE (by omega) ?_
  have := w.isLt
  norm_num at this ⊢
  exact this

/-- The bytes of a word made of `n` bytes are those bytes. -/
theorem wordBytesBE_packBytes {d : List Byte} (h : d.length ≤ 32) : wordBytesBE d.length (packBytes d) = d := by
  apply List.ext_getElem?
  intro j
  by_cases hj : j < d.length
  · have h1 := wordBytesBE_getD (packBytes d) hj
    rw [byteLE_packBytes h hj] at h1
    rw [List.getElem?_eq_getElem (by rw [wordBytesBE_length]; exact hj), List.getElem?_eq_getElem hj]
    simpa [List.getD_eq_getElem?_getD, wordBytesBE_length, hj] using h1
  · rw [List.getElem?_eq_none (by rw [wordBytesBE_length]; omega), List.getElem?_eq_none (by omega)]

theorem memRead_length (m : Memory) (a n : Nat) : (memRead m a n).length = n := by simp [memRead]

theorem memRead_getD {n j : Nat} (m : Memory) (a : Nat) (h : j < n) : (memRead m a n).getD j 0 = m.read (a + j) := by
  simp [memRead, List.getD_eq_getElem?_getD, h]

end Sys2Proof.Machine
end

