-- ==== Sys2Proof/Laws/Decode.lean ====
section
/-!
SUPPORT. What the opcode map and the decoder say (30_encoding.md R70 to R77), and the code bytes a fetch sees.
-/

namespace Sys2Proof.Machine

/-- A row of the map agrees with the instruction it builds. -/
def RowAgrees (r : OpRow) : Prop :=
  ∀ imm : Word, (r.build imm).opcode = r.info.value ∧ (r.build imm).info = some r.info ∧
    (r.build imm).immLen = r.info.imm ∧ r.info.imm ≤ 32 ∧ (r.info.imm ≠ 0 → (r.build imm).imm = imm) ∧
    (r.info.imm = 0 → (r.build imm).imm = 0) ∧ lookupByValue r.info.value = some r.info

theorem aluRows_agree : ∀ r ∈ aluRows, RowAgrees r := by
  intro r hr
  fin_cases hr <;> (intro imm; exact ⟨rfl, rfl, rfl, by decide, fun h => absurd rfl h, fun _ => rfl, rfl⟩)

theorem seqRows_agree : ∀ r ∈ seqRows, RowAgrees r := by
  intro r hr
  fin_cases hr <;> (intro imm; exact ⟨rfl, rfl, rfl, by decide, fun h => absurd rfl h, fun _ => rfl, rfl⟩)

theorem pushRows_agree : ∀ r ∈ pushRows, RowAgrees r := by
  intro r hr
  fin_cases hr <;> (intro imm; exact ⟨rfl, rfl, rfl, by decide, fun _ => rfl, fun h => absurd h (by decide), rfl⟩)

theorem dupRows_agree : ∀ r ∈ dupRows, RowAgrees r := by
  intro r hr
  fin_cases hr <;> (intro imm; exact ⟨rfl, rfl, rfl, by decide, fun h => absurd rfl h, fun _ => rfl, rfl⟩)

theorem swapRows_agree : ∀ r ∈ swapRows, RowAgrees r := by
  intro r hr
  fin_cases hr <;> (intro imm; exact ⟨rfl, rfl, rfl, by decide, fun h => absurd rfl h, fun _ => rfl, rfl⟩)

theorem extRows_agree : ∀ r ∈ extRows, RowAgrees r := by
  intro r hr
  fin_cases hr <;> (intro imm; exact ⟨rfl, rfl, rfl, by decide, fun h => absurd rfl h, fun _ => rfl, rfl⟩)

theorem opcodeMap_agree : ∀ r ∈ opcodeMap, RowAgrees r := by
  intro r hr
  simp only [opcodeMap, List.mem_append] at hr
  rcases hr with h | h | h | h | h | h
  · exact aluRows_agree r h
  · exact seqRows_agree r h
  · exact pushRows_agree r h
  · exact dupRows_agree r h
  · exact swapRows_agree r h
  · exact extRows_agree r h

/-- A row the lookup finds is a row of the map, and has the byte value. -/
theorem findRow_some {v : Byte} {r : OpRow} (h : findRow v = some r) : r ∈ opcodeMap ∧ r.info.value = v := by
  unfold findRow at h
  exact ⟨List.mem_of_find?_eq_some h, by simpa using List.find?_some h⟩

/-- What the decoder can answer: the instruction of a row of the map, built from the bytes after the opcode. -/
theorem decode_instr {bytes : List Byte} {i : Instr} (h : decode bytes = .instr i) :
    ∃ r ∈ opcodeMap, r.info.value = bytes.headD 0 ∧ findRow (bytes.headD 0) = some r ∧
      i = r.build (packBytes (takePadded r.info.imm bytes.tail)) := by
  unfold decode at h
  cases hf : findRow (bytes.headD 0) with
  | none => rw [hf] at h; cases h
  | some r =>
    rw [hf] at h
    injection h with h
    exact ⟨r, (findRow_some hf).1, (findRow_some hf).2, rfl, h.symm⟩

/-- The record of a decoded instruction is the one the lookup of its opcode byte finds. -/
theorem decode_info {bytes : List Byte} {i : Instr} (h : decode bytes = .instr i) :
    ∃ e, i.info = some e ∧ lookupByValue (bytes.headD 0) = some e ∧ e.value = bytes.headD 0 ∧ i.opcode = bytes.headD 0 ∧
      e.imm = i.immLen ∧ e.imm ≤ 32 := by
  obtain ⟨r, hr, hv, hf, rfl⟩ := decode_instr h
  have a := opcodeMap_agree r hr (packBytes (takePadded r.info.imm bytes.tail))
  exact ⟨r.info, a.2.1, by rw [← hv]; exact a.2.2.2.2.2.2, hv, a.1.trans hv, a.2.2.1.symm, a.2.2.2.1⟩

/-- The first byte the fetch sees is `CodeRead(pc)`. -/
theorem headD_codeFrom (s : State) (a : Nat) : (s.codeFrom a).headD 0 = s.codeRead a := by
  unfold State.codeFrom State.codeRead
  simp [List.headD_eq_head?_getD, List.head?_drop, List.getD_eq_getElem?_getD]

/-- A byte past the end of the code reads 0x00 (R52). -/
theorem codeRead_of_le {s : State} {a : Nat} (h : s.cfg.code.length ≤ a) : s.codeRead a = 0 := by
  simp [State.codeRead, List.getD_eq_getElem?_getD, List.getElem?_eq_none h]

/-- Past the end of the code the decoder reads STOP (R174). -/
theorem decode_past_end {s : State} (h : s.cfg.code.length ≤ s.pc) : decode (s.codeFrom s.pc) = .instr .stop := by
  have : s.codeFrom s.pc = [] := List.drop_eq_nil_of_le h
  rw [this]
  rfl

/-- The bytes of a cut list read as 0x00 past its end (R52). -/
theorem takePadded_length (n : Nat) (l : List Byte) : (takePadded n l).length = n := by
  induction n generalizing l with
  | zero => cases l <;> rfl
  | succ n ih => cases l <;> simp [takePadded, ih]

theorem takePadded_getD (n : Nat) (l : List Byte) (j : Nat) (h : j < n) : (takePadded n l).getD j 0 = l.getD j 0 := by
  induction n generalizing l j with
  | zero => omega
  | succ n ih =>
    cases l with
    | nil =>
      cases j with
      | zero => rfl
      | succ j => simpa [takePadded] using ih [] j (by omega)
    | cons b bs =>
      cases j with
      | zero => rfl
      | succ j => simpa [takePadded] using ih bs j (by omega)

/-- A list of `n` bytes or more is taken as it is. -/
theorem takePadded_append (l rest : List Byte) : takePadded l.length (l ++ rest) = l := by
  induction l with
  | nil => cases rest <;> rfl
  | cons b bs ih => simp [takePadded, ih]

end Sys2Proof.Machine
end

