-- ==== Sys2Proof/Laws/Exec.lean ====
section
/-!
SUPPORT. What the effects of step 7 can do, said once, and the shape of every instruction's meaning.
-/

namespace Sys2Proof.Machine

/-- What every effect of step 7 keeps (44_seq_stack_control.md, 45_seq_memory.md): it writes neither `ext`, the configuration,
the limits, the trace nor the host's inputs; it reads no trace; it halts only by Normal or Revert; `msize` does not fall;
the stack has the length the table says; `pc` stays, advances over the instruction, or goes to a jump destination; the
memory stays canonical with nothing listed at or past `msize`; `RET` changes only when the run ends. -/
structure GoodEffect (e : OpInfo) (f : State → Except ErrorKind State) : Prop where
  frame : ∀ s t, f s = .ok t → t.ext = s.ext ∧ t.cfg = s.cfg ∧ t.stackLimit = s.stackLimit ∧ t.memLimit = s.memLimit ∧
    t.trace = s.trace ∧ t.host = s.host
  trace : ∀ s past, f { s with trace := past } = (f s).map fun t => { t with trace := past }
  halt : ∀ s t, f s = .ok t → t.halt = s.halt ∨ t.halt = .normal ∨ t.halt = .revert
  ret : ∀ s t, f s = .ok t → t.ret = s.ret ∨ (t.halt = .normal ∨ t.halt = .revert) ∧ t.ret.length ≤ s.memLimit
  msize : ∀ s t, f s = .ok t → s.msize ≤ t.msize
  stack : ∀ s t, f s = .ok t → e.pops ≤ s.stack.length → t.stack.length = s.stack.length - e.pops + e.pushes
  pc : ∀ s t, f s = .ok t → t.pc = s.pc ∨ t.pc = s.pc + 1 + e.imm ∨ t.pc < s.cfg.code.length
  memory : ∀ s t, f s = .ok t → s.mem.wf = true → (∀ c ∈ s.mem, c.1 < s.msize) → s.memLimit % 32 = 0 →
    s.msize % 32 = 0 → s.msize ≤ s.memLimit →
    t.mem.wf = true ∧ (∀ c ∈ t.mem, c.1 < t.msize) ∧ t.msize % 32 = 0 ∧ t.msize ≤ s.memLimit

/-- An effect that, when it completes, only writes the stack and `pc`. -/
theorem goodEffect_of_advance {e : OpInfo} {f : State → Except ErrorKind State}
    (trace : ∀ s past, f { s with trace := past } = (f s).map fun t => { t with trace := past })
    (shape : ∀ s t, f s = .ok t → ∃ st pc, t = { s with stack := st, pc := pc } ∧
      (e.pops ≤ s.stack.length → st.length = s.stack.length - e.pops + e.pushes) ∧
      (pc = s.pc ∨ pc = s.pc + 1 + e.imm ∨ pc < s.cfg.code.length)) : GoodEffect e f where
  frame s t h := by
    obtain ⟨st, pc, rfl, -, -⟩ := shape s t h
    exact ⟨rfl, rfl, rfl, rfl, rfl, rfl⟩
  trace := trace
  halt s t h := by
    obtain ⟨st, pc, rfl, -, -⟩ := shape s t h
    exact .inl rfl
  ret s t h := by
    obtain ⟨st, pc, rfl, -, -⟩ := shape s t h
    exact .inl rfl
  msize s t h := by
    obtain ⟨st, pc, rfl, -, -⟩ := shape s t h
    exact Nat.le_refl _
  stack s t h := by
    obtain ⟨st, pc, rfl, hs, -⟩ := shape s t h
    exact hs
  pc s t h := by
    obtain ⟨st, pc, rfl, -, hp⟩ := shape s t h
    exact hp
  memory s t h := by
    obtain ⟨st, pc, rfl, -, -⟩ := shape s t h
    exact fun a b _ c d => ⟨a, b, c, d⟩

theorem good_unary {e : OpInfo} (f : Word → Word) (hp : e.pops = 1) (hq : e.pushes = 1) (hi : e.imm = 0) :
    GoodEffect e (unaryEffect f) := by
  refine goodEffect_of_advance (fun s past => ?_) (fun s t h => ?_)
  · rcases s with ⟨pc, _ | ⟨a, st⟩⟩ <;> rfl
  · unfold unaryEffect at h
    split at h
    · rename_i a rest hs
      injection h with h
      subst h
      exact ⟨_, _, rfl, by intro; simp [hs, hp, hq], by simp [hi]⟩
    · cases h

theorem good_binary {e : OpInfo} (f : Word → Word → Word) (hp : e.pops = 2) (hq : e.pushes = 1) (hi : e.imm = 0) :
    GoodEffect e (binaryEffect f) := by
  refine goodEffect_of_advance (fun s past => ?_) (fun s t h => ?_)
  · rcases s with ⟨pc, _ | ⟨a, _ | ⟨b, st⟩⟩⟩ <;> rfl
  · unfold binaryEffect at h
    split at h
    · rename_i a b rest hs
      injection h with h
      subst h
      exact ⟨_, _, rfl, by intro; simp [hs, hp, hq], by simp [hi]⟩
    · cases h

theorem good_ternary {e : OpInfo} (f : Word → Word → Word → Word) (hp : e.pops = 3) (hq : e.pushes = 1) (hi : e.imm = 0) :
    GoodEffect e (ternaryEffect f) := by
  refine goodEffect_of_advance (fun s past => ?_) (fun s t h => ?_)
  · rcases s with ⟨pc, _ | ⟨a, _ | ⟨b, _ | ⟨c, st⟩⟩⟩⟩ <;> rfl
  · unfold ternaryEffect at h
    split at h
    · rename_i a b c rest hs
      injection h with h
      subst h
      exact ⟨_, _, rfl, by intro; simp [hs, hp, hq], by simp [hi]⟩
    · cases h

theorem good_signextend : GoodEffect infoSignextend signextendEffect := by
  refine goodEffect_of_advance (fun s past => ?_) (fun s t h => ?_)
  · rcases s with ⟨pc, _ | ⟨a, _ | ⟨b, st⟩⟩⟩
    · rfl
    · rfl
    · simp only [signextendEffect]
      cases aluSignextend a b with
      | result r => rfl
      | error k =>
        dsimp only
        split <;> rfl
  · unfold signextendEffect at h
    split at h
    · rename_i a b rest hs
      split at h
      · injection h with h
        subst h
        exact ⟨_, _, rfl, by intro; simp [hs, infoSignextend], by simp [infoSignextend]⟩
      · split at h
        · cases h
        · injection h with h
          subst h
          exact ⟨_, _, rfl, by intro; simp [hs, infoSignextend], by simp [infoSignextend]⟩
    · cases h

theorem good_pop : GoodEffect infoPop popEffect := by
  refine goodEffect_of_advance (fun s past => ?_) (fun s t h => ?_)
  · rcases s with ⟨pc, _ | ⟨a, st⟩⟩ <;> rfl
  · unfold popEffect at h
    split at h
    · rename_i a rest hs
      injection h with h
      subst h
      exact ⟨_, _, rfl, by intro; simp [hs, infoPop], by simp [infoPop]⟩
    · cases h

theorem good_push {e : OpInfo} {n : Nat} (imm : Word) (hp : e.pops = 0) (hq : e.pushes = 1) (hi : e.imm = n) :
    GoodEffect e (pushEffect n imm) := by
  refine goodEffect_of_advance (fun s past => rfl) (fun s t h => ?_)
  injection h with h
  subst h
  exact ⟨_, _, rfl, by intro; simp [hp, hq], by simp [hi]⟩

theorem good_dup {e : OpInfo} {n : Nat} (hp : e.pops = n) (hq : e.pushes = n + 1) (hi : e.imm = 0) :
    GoodEffect e (dupEffect n) := by
  refine goodEffect_of_advance (fun s past => ?_) (fun s t h => ?_)
  · show dupEffect n { s with trace := past } = _
    unfold dupEffect
    have : State.peek { s with trace := past } (n - 1) = s.peek (n - 1) := rfl
    rw [this]
    cases s.peek (n - 1) <;> rfl
  · unfold dupEffect at h
    split at h
    · injection h with h
      subst h
      exact ⟨_, _, rfl, by intro hle; simp [hp, hq] at hle ⊢; omega, by simp [hi]⟩
    · cases h

theorem swapTop_length {n : Nat} {st st' : List Word} (h : swapTop n st = some st') : st'.length = st.length := by
  unfold swapTop at h
  split at h
  · injection h with h
    subst h
    simp
  · cases h

theorem good_swap {e : OpInfo} {n : Nat} (hp : e.pops = n + 1) (hq : e.pushes = n + 1) (hi : e.imm = 0) :
    GoodEffect e (swapEffect n) := by
  refine goodEffect_of_advance (fun s past => ?_) (fun s t h => ?_)
  · unfold swapEffect
    dsimp only
    cases swapTop n s.stack <;> rfl
  · unfold swapEffect at h
    split at h
    · rename_i st hst
      injection h with h
      subst h
      exact ⟨_, _, rfl, by intro hle; rw [swapTop_length hst, hp, hq]; omega, by simp [hi]⟩
    · cases h

theorem good_pc : GoodEffect infoPc pcEffect :=
  goodEffect_of_advance (fun _ _ => rfl) (fun s t h => by
    injection h with h
    subst h
    exact ⟨_, _, rfl, by intro; simp [infoPc], by simp [infoPc]⟩)

theorem good_msize : GoodEffect infoMsize msizeEffect :=
  goodEffect_of_advance (fun _ _ => rfl) (fun s t h => by
    injection h with h
    subst h
    exact ⟨_, _, rfl, by intro; simp [infoMsize], by simp [infoMsize]⟩)

theorem good_jumpdest : GoodEffect infoJumpdest jumpdestEffect :=
  goodEffect_of_advance (fun _ _ => rfl) (fun s t h => by
    injection h with h
    subst h
    exact ⟨_, _, rfl, by intro; simp [infoJumpdest], by simp [infoJumpdest]⟩)

/-- The boundaries of a sweep lie between its first offset and the end of the code (R84). -/
theorem sweep_bounds {code : List Byte} {skip a j : Nat} (h : j ∈ sweep code skip a) : a ≤ j ∧ j < a + code.length := by
  induction code generalizing skip a with
  | nil => simp [sweep] at h
  | cons v bs ih =>
    cases skip with
    | zero =>
      simp only [sweep, List.mem_cons] at h
      rcases h with rfl | h
      · simp
      · have := ih h
        simp only [List.length_cons]
        omega
    | succ k =>
      have := ih h
      simp only [List.length_cons]
      omega

/-- A jump destination is inside the code (R179). -/
theorem jumpDest_lt {s : State} {t : Nat} (h : s.isJumpDest t = true) : t < s.cfg.code.length := by
  have h' : t ∈ boundaries s.cfg.code := by
    simp only [State.isJumpDest, List.contains_iff_mem, jumpDests, List.mem_filter] at h
    exact h.1
  have := (sweep_bounds h').2
  omega

/-- A test that does not look at the trace commutes with a change of the trace. -/
theorem ite_trace (b : Bool) (k : ErrorKind) (t : State) (past : List TraceEvent) :
    (if b = true then Except.ok { t with trace := past } else Except.error k : Except ErrorKind State) =
      (if b = true then Except.ok t else Except.error k : Except ErrorKind State).map fun t => { t with trace := past } := by
  cases b <;> rfl

theorem good_jump : GoodEffect infoJump jumpEffect := by
  refine goodEffect_of_advance (fun s past => ?_) (fun s t h => ?_)
  · unfold jumpEffect
    dsimp only
    cases s.stack with
    | nil => rfl
    | cons a st =>
      dsimp only
      exact ite_trace (s.isJumpDest a.toNat) .invalidJump { s with stack := st, pc := a.toNat } past
  · unfold jumpEffect at h
    split at h
    · rename_i a rest hs
      split at h
      · rename_i hj
        injection h with h
        subst h
        exact ⟨_, _, rfl, by intro; simp [hs, infoJump], .inr (.inr (jumpDest_lt hj))⟩
      · cases h
    · cases h

theorem good_jumpi : GoodEffect infoJumpi jumpiEffect := by
  refine goodEffect_of_advance (fun s past => ?_) (fun s t h => ?_)
  · unfold jumpiEffect
    rcases s.stack with _ | ⟨a, _ | ⟨b, st⟩⟩
    · rfl
    · rfl
    · dsimp only
      cases wordTrue b
      · rfl
      · exact ite_trace (s.isJumpDest a.toNat) .invalidJump { s with stack := st, pc := a.toNat } past
  · unfold jumpiEffect at h
    split at h
    · rename_i a b rest hs
      split at h
      · split at h
        · rename_i hj
          injection h with h
          subst h
          exact ⟨_, _, rfl, by intro; simp [hs, infoJumpi], .inr (.inr (jumpDest_lt hj))⟩
        · cases h
      · injection h with h
        subst h
        exact ⟨_, _, rfl, by intro; simp [hs, infoJumpi], by simp [infoJumpi]⟩
    · cases h

theorem good_stop : GoodEffect infoStop stopEffect where
  frame s t h := by injection h with h; subst h; exact ⟨rfl, rfl, rfl, rfl, rfl, rfl⟩
  trace s past := rfl
  halt s t h := by injection h with h; subst h; exact .inr (.inl rfl)
  ret s t h := by injection h with h; subst h; exact .inl rfl
  msize s t h := by injection h with h; subst h; exact Nat.le_refl _
  stack s t h := by injection h with h; subst h; intro; simp [infoStop]
  pc s t h := by injection h with h; subst h; exact .inl rfl
  memory s t h := by injection h with h; subst h; exact fun a b _ c d => ⟨a, b, c, d⟩

/-- What RETURN and REVERT leave when they complete (R183, R184). -/
theorem outputEffect_ok {outcome : Halt} {s t : State} (h : outputEffect outcome s = .ok t) :
    ∃ off size rest, s.stack = off :: size :: rest ∧ (size.toNat = 0 ∨ off.toNat + size.toNat ≤ s.memLimit) ∧
      t = { s with stack := rest, msize := grownTo s.msize off.toNat size.toNat,
                   ret := memRead s.mem off.toNat size.toNat, halt := outcome } := by
  unfold outputEffect at h
  split at h
  · rename_i off size rest hs
    split at h
    · cases h
    · rename_i m hm
      injection h with h
      subst h
      obtain ⟨rfl, hle⟩ := touch_ok hm
      exact ⟨off, size, rest, hs, hle, rfl⟩
  · cases h

theorem good_output {e : OpInfo} {outcome : Halt} (ho : outcome = .normal ∨ outcome = .revert) (hp : e.pops = 2)
    (hq : e.pushes = 0) : GoodEffect e (outputEffect outcome) where
  frame s t h := by obtain ⟨_, _, _, _, _, rfl⟩ := outputEffect_ok h; exact ⟨rfl, rfl, rfl, rfl, rfl, rfl⟩
  trace s past := by
    rcases s with ⟨pc, _ | ⟨a, _ | ⟨b, st⟩⟩⟩
    · rfl
    · rfl
    · simp only [outputEffect, State.touch]
      split <;> rfl
  halt s t h := by obtain ⟨_, _, _, _, _, rfl⟩ := outputEffect_ok h; exact .inr ho
  ret s t h := by
    obtain ⟨_, _, _, _, hle, rfl⟩ := outputEffect_ok h
    exact .inr ⟨ho, by simp [memRead]; omega⟩
  msize s t h := by obtain ⟨_, _, _, _, _, rfl⟩ := outputEffect_ok h; exact le_grownTo ..
  stack s t h := by obtain ⟨_, _, _, hs, _, rfl⟩ := outputEffect_ok h; intro; simp [hs, hp, hq]
  pc s t h := by obtain ⟨_, _, _, _, _, rfl⟩ := outputEffect_ok h; exact .inl rfl
  memory s t h := by
    obtain ⟨off, size, _, _, hle, rfl⟩ := outputEffect_ok h
    intro a b hl c d
    have g := grownTo_spec (a := off.toNat) (n := size.toNat) hl c d hle
    exact ⟨a, fun q hq => Nat.lt_of_lt_of_le (b q hq) g.2.1, g.1, g.2.2.1⟩

/-- What MLOAD leaves when it completes (R200). -/
theorem mloadEffect_ok {s t : State} (h : mloadEffect s = .ok t) :
    ∃ off rest, s.stack = off :: rest ∧ off.toNat + 32 ≤ s.memLimit ∧
      t = { s with stack := packBytes (memRead s.mem off.toNat 32) :: rest, msize := grownTo s.msize off.toNat 32,
                   pc := s.pc + 1 } := by
  unfold mloadEffect at h
  split at h
  · rename_i off rest hs
    split at h
    · cases h
    · rename_i m hm
      injection h with h
      subst h
      obtain ⟨rfl, hle⟩ := touch_ok hm
      exact ⟨off, rest, hs, by omega, rfl⟩
  · cases h

theorem good_mload : GoodEffect infoMload mloadEffect where
  frame s t h := by obtain ⟨_, _, _, _, rfl⟩ := mloadEffect_ok h; exact ⟨rfl, rfl, rfl, rfl, rfl, rfl⟩
  trace s past := by
    rcases s with ⟨pc, _ | ⟨a, st⟩⟩
    · rfl
    · simp only [mloadEffect, State.touch]
      split <;> rfl
  halt s t h := by obtain ⟨_, _, _, _, rfl⟩ := mloadEffect_ok h; exact .inl rfl
  ret s t h := by obtain ⟨_, _, _, _, rfl⟩ := mloadEffect_ok h; exact .inl rfl
  msize s t h := by obtain ⟨off, _, _, _, rfl⟩ := mloadEffect_ok h; exact le_grownTo s.msize off.toNat 32
  stack s t h := by obtain ⟨_, _, hs, _, rfl⟩ := mloadEffect_ok h; intro; simp [hs, infoMload]
  pc s t h := by obtain ⟨_, _, _, _, rfl⟩ := mloadEffect_ok h; exact .inr (.inl rfl)
  memory s t h := by
    obtain ⟨off, _, _, hle, rfl⟩ := mloadEffect_ok h
    intro a b hl c d
    have g := grownTo_spec (a := off.toNat) (n := 32) hl c d (.inr hle)
    exact ⟨a, fun q hq => Nat.lt_of_lt_of_le (b q hq) g.2.1, g.1, g.2.2.1⟩

/-- What MSTORE and MSTORE8 leave when they complete (R201, R202). -/
theorem storeEffect_ok {bytesOf : Word → List Byte} {s t : State} (h : storeEffect bytesOf s = .ok t) :
    ∃ off val rest, s.stack = off :: val :: rest ∧
      ((bytesOf val).length = 0 ∨ off.toNat + (bytesOf val).length ≤ s.memLimit) ∧
      t = { s with stack := rest, msize := grownTo s.msize off.toNat (bytesOf val).length,
                   mem := memWrite s.mem off.toNat (bytesOf val), pc := s.pc + 1 } := by
  unfold storeEffect at h
  split at h
  · rename_i off val rest hs
    split at h
    · cases h
    · rename_i m hm
      injection h with h
      subst h
      obtain ⟨rfl, hle⟩ := touch_ok hm
      exact ⟨off, val, rest, hs, hle, rfl⟩
  · cases h

theorem good_store {e : OpInfo} {bytesOf : Word → List Byte} (hne : ∀ w, (bytesOf w).length ≠ 0) (hp : e.pops = 2)
    (hq : e.pushes = 0) (hi : e.imm = 0) : GoodEffect e (storeEffect bytesOf) where
  frame s t h := by obtain ⟨_, _, _, _, _, rfl⟩ := storeEffect_ok h; exact ⟨rfl, rfl, rfl, rfl, rfl, rfl⟩
  trace s past := by
    rcases s with ⟨pc, _ | ⟨a, _ | ⟨b, st⟩⟩⟩
    · rfl
    · rfl
    · simp only [storeEffect, State.touch]
      split <;> rfl
  halt s t h := by obtain ⟨_, _, _, _, _, rfl⟩ := storeEffect_ok h; exact .inl rfl
  ret s t h := by obtain ⟨_, _, _, _, _, rfl⟩ := storeEffect_ok h; exact .inl rfl
  msize s t h := by obtain ⟨_, _, _, _, _, rfl⟩ := storeEffect_ok h; exact le_grownTo ..
  stack s t h := by obtain ⟨_, _, _, hs, _, rfl⟩ := storeEffect_ok h; intro; simp [hs, hp, hq]
  pc s t h := by obtain ⟨_, _, _, _, _, rfl⟩ := storeEffect_ok h; exact .inr (.inl (by simp [hi]))
  memory s t h := by
    obtain ⟨off, val, _, _, hle, rfl⟩ := storeEffect_ok h
    intro a b hl c d
    have g := grownTo_spec (a := off.toNat) (n := (bytesOf val).length) hl c d hle
    exact ⟨memWrite_wf a _ _,
      memWrite_below (fun q hq => Nat.lt_of_lt_of_le (b q hq) g.2.1) (g.2.2.2 (hne val)), g.1, g.2.2.1⟩

/-- The shape of every meaning of an opcode: an EXT opcode hands off, any other issues an effect with the properties of
`GoodEffect`; STOP's effect is `stopEffect`. -/
theorem exec_shape {i : Instr} {e : OpInfo} (h : i.info = some e) :
    (e.unitClass = .ext ∧ ∀ s, exec i s = handoff e s) ∨
    (e.unitClass ≠ .ext ∧ ∃ f, GoodEffect e f ∧ ∀ s, exec i s = issue e f s) := by
  cases i <;> first
    | (cases h; done)
    | (cases h; exact .inl ⟨rfl, fun _ => rfl⟩)
    | (cases h; exact .inr ⟨by decide, _, good_unary _ rfl rfl rfl, fun _ => rfl⟩)
    | (cases h; exact .inr ⟨by decide, _, good_binary _ rfl rfl rfl, fun _ => rfl⟩)
    | (cases h; exact .inr ⟨by decide, _, good_ternary _ rfl rfl rfl, fun _ => rfl⟩)
    | (cases h; exact .inr ⟨by decide, _, good_push _ rfl rfl rfl, fun _ => rfl⟩)
    | (cases h; exact .inr ⟨by decide, _, good_dup rfl rfl rfl, fun _ => rfl⟩)
    | (cases h; exact .inr ⟨by decide, _, good_swap rfl rfl rfl, fun _ => rfl⟩)
    | (cases h; exact .inr ⟨by decide, _, good_signextend, fun _ => rfl⟩)
    | (cases h; exact .inr ⟨by decide, _, good_pop, fun _ => rfl⟩)
    | (cases h; exact .inr ⟨by decide, _, good_pc, fun _ => rfl⟩)
    | (cases h; exact .inr ⟨by decide, _, good_msize, fun _ => rfl⟩)
    | (cases h; exact .inr ⟨by decide, _, good_jumpdest, fun _ => rfl⟩)
    | (cases h; exact .inr ⟨by decide, _, good_jump, fun _ => rfl⟩)
    | (cases h; exact .inr ⟨by decide, _, good_jumpi, fun _ => rfl⟩)
    | (cases h; exact .inr ⟨by decide, _, good_stop, fun _ => rfl⟩)
    | (cases h; exact .inr ⟨by decide, _, good_mload, fun _ => rfl⟩)
    | (cases h; exact .inr ⟨by decide, _, good_output (.inl rfl) rfl rfl, fun _ => rfl⟩)
    | (cases h; exact .inr ⟨by decide, _, good_output (.inr rfl) rfl rfl, fun _ => rfl⟩)
    | (cases h; exact .inr ⟨by decide, _, good_store (fun _ => by simp [bytes32]) rfl rfl rfl, fun _ => rfl⟩)

end Sys2Proof.Machine
end

