-- ==== Sys2Proof/Laws/HostWrite.lean ====
section
/-!
SUPPORT. What the host's writes at its port can do: to a draft of the state at a handoff (10_state.md R38,
46_external_opcodes.md R210), and to the configuration before reset (70_reset_and_hazards.md R342).
-/

namespace Sys2Proof.Machine

/-- What one write does to the memory: it stays canonical, and whatever reads otherwise, or is newly listed, stands at an
offset written. -/
theorem HostDraft.write_mem {s : State} {d d' : HostDraft} {w : HostWrite} (h : d.write s w = some d') (hw : d.mem.wf = true) :
    d'.mem.wf = true ∧ (∀ a ∈ d.written, a ∈ d'.written) ∧ (∀ c ∈ d'.mem, c ∈ d.mem ∨ c.1 ∈ d'.written) ∧
      ∀ a, a ∉ d'.written → d'.mem.read a = d.mem.read a := by
  have same : ∀ d₂ : HostDraft, d₂.mem = d.mem → d₂.written = d.written → d₂.mem.wf = true ∧ (∀ a ∈ d.written, a ∈ d₂.written) ∧
      (∀ c ∈ d₂.mem, c ∈ d.mem ∨ c.1 ∈ d₂.written) ∧ ∀ a, a ∉ d₂.written → d₂.mem.read a = d.mem.read a := by
    intro d₂ h1 h2
    rw [h1, h2]
    exact ⟨hw, fun _ h => h, fun _ h => .inl h, fun _ _ => rfl⟩
  unfold HostDraft.write at h
  split at h
  · cases h
  · split at h
    · unfold HostDraft.writeReg at h
      split at h
      · split at h
        · obtain ⟨x, -, rfl⟩ := Option.map_eq_some_iff.mp h
          exact same _ rfl rfl
        · cases h
      · split at h <;> cases h
        exact same _ rfl rfl
      · split at h <;> cases h
        exact same _ rfl rfl
      · split at h <;> cases h
        exact same _ rfl rfl
      · cases h
    · split at h <;> cases h
      exact same _ rfl rfl
    · rename_i a b
      split at h <;> cases h
      refine ⟨Memory.write_wf hw a b, fun _ h => List.mem_cons_of_mem _ h, fun c hc => ?_, fun x hx => ?_⟩
      · rcases Memory.mem_write hc with hc | rfl
        · exact .inl hc
        · exact .inr List.mem_cons_self
      · simp only [List.mem_cons, not_or] at hx
        rw [Memory.read_write hw, if_neg hx.1]
    · cases h
    · cases h
      exact same _ rfl rfl

/-- What a list of writes does to the memory. -/
theorem HostDraft.writeAll_mem {s : State} {d d' : HostDraft} {ws : List HostWrite} (h : d.writeAll s ws = some d')
    (hw : d.mem.wf = true) :
    d'.mem.wf = true ∧ (∀ a ∈ d.written, a ∈ d'.written) ∧ (∀ c ∈ d'.mem, c ∈ d.mem ∨ c.1 ∈ d'.written) ∧
      ∀ a, a ∉ d'.written → d'.mem.read a = d.mem.read a := by
  induction ws generalizing d with
  | nil =>
    cases h
    exact ⟨hw, fun _ h => h, fun _ h => .inl h, fun _ _ => rfl⟩
  | cons w ws ih =>
    unfold HostDraft.writeAll at h
    split at h
    · rename_i d₁ h₁
      obtain ⟨a1, a2, a3, a4⟩ := HostDraft.write_mem h₁ hw
      obtain ⟨b1, b2, b3, b4⟩ := ih h a1
      refine ⟨b1, fun a ha => b2 a (a2 a ha), fun c hc => ?_, fun a ha => ?_⟩
      · rcases b3 c hc with hc | hc
        · rcases a3 c hc with hc | hc
          · exact .inl hc
          · exact .inr (b2 _ hc)
        · exact .inr hc
      · rw [b4 a ha, a4 a fun h => ha (b2 a h)]
    · cases h

/-- The offsets written are those of the writes of memory. -/
theorem HostDraft.writeAll_written {s : State} {d d' : HostDraft} {ws : List HostWrite} (h : d.writeAll s ws = some d')
    {a : Nat} (ha : a ∈ d'.written) : a ∈ d.written ∨ ∃ b, HostWrite.mem a b ∈ ws := by
  induction ws generalizing d with
  | nil =>
    cases h
    exact .inl ha
  | cons w ws ih =>
    unfold HostDraft.writeAll at h
    split at h
    · rename_i d₁ h₁
      rcases ih h with hd | ⟨b, hb⟩
      · cases w with
        | mem a' b =>
          simp only [HostDraft.write, Option.ite_none_left_eq_some, Option.ite_none_right_eq_some, Option.some.injEq] at h₁
          obtain ⟨-, -, rfl⟩ := h₁
          rcases List.mem_cons.mp hd with rfl | hd
          · exact .inr ⟨b, List.mem_cons_self⟩
          · exact .inl hd
        | reg n v =>
          left
          unfold HostDraft.write HostDraft.writeReg at h₁
          split at h₁
          · cases h₁
          · simp only at h₁
            split at h₁
            · split at h₁
              · obtain ⟨x, -, rfl⟩ := Option.map_eq_some_iff.mp h₁
                exact hd
              · cases h₁
            all_goals
              first
              | cases h₁
              | split at h₁ <;> cases h₁
                exact hd
        | stack i x =>
          left
          simp only [HostDraft.write, Option.ite_none_left_eq_some, Option.ite_none_right_eq_some, Option.some.injEq] at h₁
          obtain ⟨-, -, rfl⟩ := h₁
          exact hd
        | code i b =>
          simp only [HostDraft.write, ite_self] at h₁
          cases h₁
        | event ev =>
          left
          simp only [HostDraft.write, Option.ite_none_left_eq_some, Option.some.injEq] at h₁
          obtain ⟨-, rfl⟩ := h₁
          exact hd
      · exact .inr ⟨b, List.mem_cons_of_mem _ hb⟩
    · cases h

/-- Every write of a list that is carried out is one that the port allows. -/
theorem HostDraft.writeAll_each {s : State} {d d' : HostDraft} {ws : List HostWrite} (h : d.writeAll s ws = some d')
    {w : HostWrite} (hw : w ∈ ws) : ∃ d₁ d₂ : HostDraft, d₁.write s w = some d₂ := by
  induction ws generalizing d with
  | nil => cases hw
  | cons v vs ih =>
    unfold HostDraft.writeAll at h
    split at h
    · rcases List.mem_cons.mp hw with rfl | hw
      · exact ⟨_, _, ‹_›⟩
      · exact ih h hw
    · cases h

/-- Writes in a row are those of the first list and then those of the second. -/
theorem HostDraft.writeAll_append {s : State} {d d₁ : HostDraft} {ws vs : List HostWrite} (h : d.writeAll s ws = some d₁) :
    d.writeAll s (ws ++ vs) = d₁.writeAll s vs := by
  induction ws generalizing d with
  | nil =>
    cases h
    rfl
  | cons w ws ih =>
    simp only [List.cons_append, HostDraft.writeAll] at h ⊢
    split at h
    · exact ih h
    · cases h

/-- What R210 path 1 leaves. -/
theorem completesAs_spec {s t : State} {e : OpInfo} {written : List Nat} :
    s.completesAs e written t = true ↔ e.value ≠ infoSelfdestruct.value ∧ e.pops ≤ s.stack.length ∧
      t.stack.length = s.stack.length - e.pops + e.pushes ∧ t.stack.length ≤ s.stackLimit ∧
      t.stack.drop e.pushes = s.stack.drop e.pops ∧ t.msize % 32 = 0 ∧ s.msize ≤ t.msize ∧ t.msize ≤ s.memLimit ∧
      (∀ a ∈ written, a < t.msize) ∧ t.pc = s.pc + 1 ∧ t.halt = .running ∧ t.ext = false ∧
      t.trace = s.trace ++ [{ pc := s.pc, opcode := e.value, stack := t.stack }] := by
  simp only [State.completesAs, completable, Bool.and_eq_true, decide_eq_true_eq, List.all_eq_true, Bool.not_eq_true', and_assoc]
  rfl

/-- What R210 path 2 leaves. -/
theorem haltsAs_spec {s t : State} {e : OpInfo} :
    s.haltsAs e t = true ↔ mayHalt e t.halt = true ∧ t = { s with halt := t.halt, ext := false } := by
  simp only [State.haltsAs, Bool.and_eq_true, decide_eq_true_eq]

theorem allThere_map_some {α : Type} (xs : List α) : allThere (xs.map some) = some xs := by
  induction xs with
  | nil => rfl
  | cons x xs ih => simp [allThere, ih]

/-- An action made of writes is carried out when it leaves what one of the two paths of R210 leaves. -/
theorem hostWrites_of {s : State} {e : OpInfo} {ws : List HostWrite} {d : HostDraft} {words : List Word}
    (hd : s.draft.writeAll s ws = some d) (hw : allThere d.stack = some words)
    (h : s.completesAs e d.written (s.ofDraft d words) = true ∨ s.haltsAs e (s.ofDraft d words) = true) :
    s.hostWrites e ws = some (s.ofDraft d words) := by
  simp only [State.hostWrites, hd, hw, Bool.or_eq_true, if_pos h]

/-- What an action made of writes at the port can do: one of the two paths of R210. -/
theorem hostWrites_cases {s t : State} {e : OpInfo} {ws : List HostWrite} (h : s.hostWrites e ws = some t) :
    ∃ d words, s.draft.writeAll s ws = some d ∧ allThere d.stack = some words ∧ t = s.ofDraft d words ∧
      (s.completesAs e d.written t = true ∨ s.haltsAs e t = true) := by
  unfold State.hostWrites at h
  split at h
  · cases h
  · split at h
    · cases h
    · simp only [Option.ite_none_right_eq_some, Bool.or_eq_true, Option.some.injEq] at h
      obtain ⟨h1, rfl⟩ := h
      exact ⟨_, _, ‹_›, ‹_›, rfl, h1⟩

/-- A load without writes is the configuration in place. -/
theorem LaunchConfig.load_nil (c : LaunchConfig) : c.load [] = some c := by
  simp only [LaunchConfig.load, LoadDraft.writeAll, LaunchConfig.draft, List.length_map, Nat.le_refl, if_true]
  rw [← List.map_take, List.take_length, allThere_map_some]
  rfl

/-- The configuration of a run is in its legal range. -/
theorem ResetRequest.config_inRange {r : ResetRequest} {c cfg : LaunchConfig} (h : r.config c = some cfg) :
    cfg.inRange = true := by
  unfold ResetRequest.config at h
  exact (Option.filter_eq_some_iff.mp h).2

end Sys2Proof.Machine
end

