-- ==== Sys2Proof/Laws/Step.lean ====
section
/-!
SUPPORT. What one step can do, said once: the sequencer (44_seq_stack_control.md R170), the ALU port (40_alu_arithmetic.md
R114), the host at a handoff (46_external_opcodes.md R210), and reset (70_reset_and_hazards.md R340).
-/

namespace Sys2Proof.Machine

/-- Where the sequencer has a step, that is the step of the machine. -/
theorem step_of_enabled {s : State} (h : s.Enabled) : step s = sequencerStep s := by
  obtain ⟨h1, h2, h3, h4⟩ := h
  simp [step, h1, h2, blockStep, h3, h4]

/-- A sequencer step runs the instruction whose record the opcode byte finds, or raises `InvalidInstruction`. -/
theorem sequencerStep_cases (s : State) :
    (lookupByValue (s.codeRead s.pc) = none ∧ sequencerStep s = .next (s.raise .invalidInstruction)) ∨
    ∃ i e, decode (s.codeFrom s.pc) = .instr i ∧ i.info = some e ∧ lookupByValue (s.codeRead s.pc) = some e ∧
      e.value = s.codeRead s.pc ∧ e.imm ≤ 32 ∧ sequencerStep s = exec i s := by
  unfold sequencerStep
  cases hd : decode (s.codeFrom s.pc) with
  | instr i =>
    obtain ⟨e, h1, h2, h3, -, -, h6⟩ := decode_info hd
    rw [headD_codeFrom] at h2 h3
    exact .inr ⟨i, e, rfl, h1, h2, h3, h6, rfl⟩
  | unassigned v =>
    refine .inl ⟨?_, rfl⟩
    unfold decode at hd
    rw [headD_codeFrom] at hd
    unfold lookupByValue
    cases hf : findRow (s.codeRead s.pc) with
    | none => rfl
    | some r => rw [hf] at hd; cases hd

/-- What the meaning of an opcode can do: raise, hand off, or complete with an effect of the properties of `GoodEffect`. -/
theorem exec_cases {i : Instr} {e : OpInfo} (h : i.info = some e) (s : State) :
    (∃ k, exec i s = .next (s.raise k)) ∨
    (e.unitClass = .ext ∧ s.checks e = none ∧ exec i s = .next { s with ext := true, host := s.host.tick }) ∨
    (∃ f t, GoodEffect e f ∧ s.checks e = none ∧ f s = .ok t ∧ exec i s = .next (s.retire e.value t)) := by
  rcases exec_shape h with ⟨h1, h2⟩ | ⟨-, f, hf, h2⟩
  · rw [h2]
    rcases handoff_cases e s with ⟨k, -, h⟩ | ⟨hc, h⟩
    · exact .inl ⟨k, h⟩
    · exact .inr (.inl ⟨h1, hc, h⟩)
  · rw [h2]
    rcases issue_cases e f s with ⟨k, -, h⟩ | ⟨k, -, -, h⟩ | ⟨t, hc, ht, h⟩
    · exact .inl ⟨k, h⟩
    · exact .inl ⟨k, h⟩
    · exact .inr (.inr ⟨f, t, hf, hc, ht, h⟩)

/-- What a sequencer step that gives a next state does. -/
theorem sequencerStep_next {s t : State} (h : sequencerStep s = .next t) :
    (∃ k, t = s.raise k) ∨
    (∃ e, e.unitClass = .ext ∧ lookupByValue (s.codeRead s.pc) = some e ∧ s.checks e = none ∧
      t = { s with ext := true, host := s.host.tick }) ∨
    (∃ e f u, GoodEffect e f ∧ lookupByValue (s.codeRead s.pc) = some e ∧ e.value = s.codeRead s.pc ∧ e.imm ≤ 32 ∧
      s.checks e = none ∧ f s = .ok u ∧ t = s.retire e.value u) := by
  rcases sequencerStep_cases s with ⟨-, h'⟩ | ⟨i, e, -, hi, hl, hv, h32, h'⟩
  · rw [h'] at h
    cases h
    exact .inl ⟨_, rfl⟩
  · rw [h'] at h
    rcases exec_cases hi s with ⟨k, hx⟩ | ⟨hxt, hc, hx⟩ | ⟨f, u, hg, hc, hu, hx⟩
    · rw [hx] at h
      cases h
      exact .inl ⟨_, rfl⟩
    · rw [hx] at h
      cases h
      exact .inr (.inl ⟨e, hxt, hl, hc, rfl⟩)
    · rw [hx] at h
      cases h
      exact .inr (.inr ⟨e, f, u, hg, hl, hv, h32, hc, hu, rfl⟩)

/-- A request at the ALU port is answered, and nothing else happens (R114). -/
theorem portRequestStep_answers (r : PortRequest) (s : State) : ∃ ans, portRequestStep r s = .next (s.answerPort ans) := by
  unfold portRequestStep
  cases r with
  | load d => exact ⟨_, rfl⟩
  | select fn =>
    simp only [PortRequest.instr]
    unfold decodeSelect
    split_ifs <;> exact ⟨_, rfl⟩

/-- What an action of the host that R210 allows does. -/
theorem hostAct_cases {s t : State} {e : OpInfo} {act : HostAction} (h : State.hostAct s e act = some t) :
    (∃ o, act = .halt o ∧ mayHalt e o = true ∧ t = { s with halt := o, ext := false }) ∨
    (∃ p w c, act = .complete p w c ∧ s.mayComplete e p (hostRanges w c) = true ∧ t = s.hostComplete e p w c) ∨
    (∃ ws, act = .writes ws ∧ s.hostWrites e ws = some t) := by
  unfold State.hostAct at h
  cases act with
  | complete p w c =>
    simp only at h
    split at h
    · injection h with h
      exact .inr (.inl ⟨_, _, _, rfl, ‹_›, h.symm⟩)
    · cases h
  | halt o =>
    simp only at h
    split at h
    · injection h with h
      exact .inl ⟨_, rfl, ‹_›, h.symm⟩
    · cases h
  | writes ws => exact .inr (.inr ⟨ws, rfl, h⟩)

/-- What it takes for the host to complete an instruction (R210 path 1). -/
theorem mayComplete_spec {s : State} {e : OpInfo} {p : List Word} {rs : List (Nat × Nat)} :
    s.mayComplete e p rs = true ↔ e.value ≠ infoSelfdestruct.value ∧ e.pops ≤ s.stack.length ∧ p.length = e.pushes ∧
      s.stack.length - e.pops + e.pushes ≤ s.stackLimit ∧ ∀ r ∈ rs, r.2 = 0 ∨ r.1 + r.2 ≤ s.memLimit := by
  simp only [State.mayComplete, completable, inMemory, Bool.and_eq_true, Bool.or_eq_true, decide_eq_true_eq, List.all_eq_true, and_assoc]
  rfl

/-- Every step that gives a next state is a reset, an answer of the port, a step of the sequencer, or an action of the host. -/
theorem step_cases {s t : State} (h : step s = .next t) :
    (∃ r cfg, s.host.reset = some r ∧ r.config s.cfg = some cfg ∧
      t = { s.afterReset with cfg := cfg, host := { s.host with reset := none, meter := r.meter } }) ∨
    (s.host.reset = none ∧ ∃ ans, t = s.answerPort ans) ∨
    (s.Enabled ∧ sequencerStep s = .next t) ∨
    (s.host.reset = none ∧ s.halt = .running ∧ s.ext = true ∧ ∃ act later e, s.host.actions = act :: later ∧
      s.handedOff = some e ∧ State.hostAct { s with host := { s.host with actions := later } } e act = some t) := by
  cases hr : s.host.reset with
  | some r =>
    have hs : step s = resetStep r s := by simp only [step, hr]
    rw [hs] at h
    unfold resetStep at h
    split at h
    · cases h
      exact .inl ⟨r, _, rfl, ‹_›, rfl⟩
    · cases h
  | none =>
    cases hq : s.host.request with
    | some q =>
      have hs : step s = portRequestStep q s := by simp only [step, hr, hq]
      obtain ⟨ans, ha⟩ := portRequestStep_answers q s
      rw [hs, ha] at h
      cases h
      exact .inr (.inl ⟨rfl, ans, rfl⟩)
    | none =>
      have hs : step s = blockStep s := by simp only [step, hr, hq]
      rw [hs] at h
      unfold blockStep at h
      split at h
      · rename_i hh
        split at h
        · rename_i hx
          refine .inr (.inr (.inr ⟨rfl, hh, hx, ?_⟩))
          unfold hostStep at h
          split at h
          · cases h
          · rename_i act later ha
            split at h
            · cases h
            · rename_i e he
              split at h
              · rename_i u hu
                cases h
                exact ⟨act, later, e, ha, he, hu⟩
              · cases h
        · rename_i hx
          exact .inr (.inr (.inl ⟨⟨hr, hq, hh, by simpa using hx⟩, h⟩))
      · cases h

/-- The instruction handed off is the one of class EXT whose opcode byte stands at `pc` (R31). -/
theorem handedOff_iff {s : State} {e : OpInfo} :
    s.handedOff = some e ↔ lookupByValue (s.codeRead s.pc) = some e ∧ e.unitClass = .ext := by
  unfold State.handedOff
  constructor
  · intro h
    split at h
    · split at h
      · injection h with h
        subst h
        exact ⟨‹_›, ‹_›⟩
      · cases h
    · cases h
  · rintro ⟨hl, he⟩
    simp [hl, he]

/-- A handoff is at an opcode byte inside the code: past its end there is only STOP (R174). -/
theorem handedOff_lt {s : State} {e : OpInfo} (h : s.handedOff = some e) : s.pc < s.cfg.code.length := by
  by_contra hn
  have h2 := handedOff_iff.mp h
  rw [codeRead_of_le (by omega)] at h2
  obtain ⟨h1, h2⟩ := h2
  have h0 : lookupByValue 0 = some infoStop := rfl
  rw [h0] at h1
  injection h1 with h1
  subst h1
  cases h2

/-- At or past the end of the code a sequencer step is STOP (R174). -/
theorem sequencerStep_past_end {s : State} (h : s.cfg.code.length ≤ s.pc) : sequencerStep s = exec .stop s := by
  unfold sequencerStep
  rw [decode_past_end h]

/-- What STOP can do: raise the kind of a check, or halt (R173). -/
theorem exec_stop_cases (s : State) :
    (∃ k, exec .stop s = .next (s.raise k)) ∨
    exec .stop s = .next (s.retire 0x00 { s with halt := .normal }) := by
  rcases issue_cases infoStop stopEffect s with ⟨k, -, h⟩ | ⟨k, -, -, h⟩ | ⟨t, -, ht, h⟩
  · exact .inl ⟨k, h⟩
  · exact .inl ⟨k, h⟩
  · injection ht with ht
    subst ht
    exact .inr h

end Sys2Proof.Machine
end

