-- ==== Sys2Proof/Tests/Slice0.lean ====
section
/-!
SUPPORT. Tests. A test's expected result is a vector of spec/95_test_vectors.md (its id in the comment) or is worked out by
hand from the rule named. A theorem `witness_<Name>` shows that the hypotheses of `Obligations.<Name>` can be met together,
each clause at a boundary of its range.
-/

namespace Sys2Proof.Tests

open Sys2Proof.Machine

/-- A state right after launch with a code and a stack, top first. -/
def atStart (code : List Byte) (stack : List Word) : State :=
  { State.reset with stack := stack, cfg := { LaunchConfig.atReset with code := code } }

/-- One field of the state after an outcome. -/
def after {α : Type} (o : StepOutcome) (f : State → α) : Option α :=
  match o with
  | .next s => some (f s)
  | _ => none

/-- The state after an outcome, or a default. -/
def nextOr (d : State) (o : StepOutcome) : State :=
  match o with
  | .next s => s
  | _ => d

/-- The refusal of an outcome. -/
def refusal (o : StepOutcome) : Option Refusal :=
  match o with
  | .refused r => some r
  | _ => none

/-- The stack and `pc` that one step leaves while running. -/
def stepStack (code : List Byte) (stack : List Word) : Option (List Word × Nat × Halt) :=
  after (step (atStart code stack)) fun t => (t.stack, t.pc, t.halt)

/-- A function of the ALU port, asked and answered by one step. -/
def askPort (fn : Byte) (a b : Word) : Option (Option PortAnswer) :=
  after (step { State.reset with host := { HostSide.atReset with request := some (.select fn), a := a, b := b } })
    fun t => t.host.answer

/-! Well-formedness: the one check, on both sides of its bound. -/

theorem test_wf_refuses_push1_of_two_bytes : Instr.wf (.push1 0x100) = false := by decide
theorem test_wf_refuses_push31_of_32_bytes : Instr.wf (.push31 (BitVec.twoPow 256 248)) = false := by decide
theorem test_wf_accepts_the_greatest_immediates :
    Instr.wf (.push1 0xff) = true ∧ Instr.wf (.push32 (BitVec.allOnes 256)) = true ∧ Instr.wf .add = true := by decide

/-! Decoding, from words written out by the encoding tables of 30_encoding.md. -/

/-- 30_encoding.md R76: the bytes of the class ALU. -/
theorem test_decode_alu : ∀ p ∈
    ([([0x01], .add), ([0x02], .mul), ([0x03], .sub), ([0x04], .div), ([0x05], .sdiv), ([0x06], .mod),
     ([0x07], .smod), ([0x08], .addmod), ([0x09], .mulmod), ([0x0a], .exp), ([0x0b], .signextend),
     ([0x10], .lt), ([0x11], .gt), ([0x12], .slt), ([0x13], .sgt), ([0x14], .eq), ([0x15], .iszero),
     ([0x16], .and), ([0x17], .or), ([0x18], .xor), ([0x19], .not), ([0x1a], .byte), ([0x1b], .shl),
     ([0x1c], .shr), ([0x1d], .sar)] : List (List Byte × Instr)),
    decode p.1 = .instr p.2 ∧ encode p.2 = p.1 := by decide

/-- 30_encoding.md R76: the bytes of the class SEQ, but PUSHn, DUPn and SWAPn. -/
theorem test_decode_seq : ∀ p ∈
    ([([0x00], .stop), ([0x50], .pop), ([0x51], .mload), ([0x52], .mstore), ([0x53], .mstore8), ([0x56], .jump),
     ([0x57], .jumpi), ([0x58], .pc), ([0x59], .msize), ([0x5b], .jumpdest), ([0xf3], .return_),
     ([0xfd], .revert)] : List (List Byte × Instr)),
    decode p.1 = .instr p.2 ∧ encode p.2 = p.1 := by decide

/-- 30_encoding.md R76: DUPn is 0x7f + n. -/
theorem test_decode_dup : ∀ p ∈
    ([([0x80], .dup1), ([0x81], .dup2), ([0x82], .dup3), ([0x83], .dup4), ([0x84], .dup5), ([0x85], .dup6),
     ([0x86], .dup7), ([0x87], .dup8), ([0x88], .dup9), ([0x89], .dup10), ([0x8a], .dup11), ([0x8b], .dup12),
     ([0x8c], .dup13), ([0x8d], .dup14), ([0x8e], .dup15), ([0x8f], .dup16)] : List (List Byte × Instr)),
    decode p.1 = .instr p.2 ∧ encode p.2 = p.1 := by decide

/-- 30_encoding.md R76: SWAPn is 0x8f + n. -/
theorem test_decode_swap : ∀ p ∈
    ([([0x90], .swap1), ([0x91], .swap2), ([0x92], .swap3), ([0x93], .swap4), ([0x94], .swap5),
     ([0x95], .swap6), ([0x96], .swap7), ([0x97], .swap8), ([0x98], .swap9), ([0x99], .swap10),
     ([0x9a], .swap11), ([0x9b], .swap12), ([0x9c], .swap13), ([0x9d], .swap14), ([0x9e], .swap15),
     ([0x9f], .swap16)] : List (List Byte × Instr)),
    decode p.1 = .instr p.2 ∧ encode p.2 = p.1 := by decide

/-- 30_encoding.md R76: the bytes of the class EXT. -/
theorem test_decode_ext : ∀ p ∈
    ([([0x20], .sha3), ([0x30], .address), ([0x31], .balance), ([0x32], .origin), ([0x33], .caller),
     ([0x34], .callvalue), ([0x35], .calldataload), ([0x36], .calldatasize), ([0x37], .calldatacopy),
     ([0x38], .codesize), ([0x39], .codecopy), ([0x3a], .gasprice), ([0x3b], .extcodesize),
     ([0x3c], .extcodecopy), ([0x3d], .returndatasize), ([0x3e], .returndatacopy), ([0x3f], .extcodehash),
     ([0x40], .blockhash), ([0x41], .coinbase), ([0x42], .timestamp), ([0x43], .number), ([0x44], .difficulty),
     ([0x45], .gaslimit), ([0x54], .sload), ([0x55], .sstore), ([0x5a], .gas), ([0xa0], .log0),
     ([0xa1], .log1), ([0xa2], .log2), ([0xa3], .log3), ([0xa4], .log4), ([0xf0], .create), ([0xf1], .call),
     ([0xf2], .callcode), ([0xf4], .delegatecall), ([0xf5], .create2), ([0xfa], .staticcall),
     ([0xff], .selfdestruct)] : List (List Byte × Instr)),
    decode p.1 = .instr p.2 ∧ encode p.2 = p.1 := by decide

/-- 30_encoding.md R72, R76: PUSHn is 0x5f + n, then n bytes, the first the most significant. -/
theorem test_decode_push_short : ∀ p ∈
    ([([0x60, 0xa1], .push1 0xa1),
     ([0x61, 0xa1, 0xa2], .push2 0xa1a2),
     ([0x62, 0xa1, 0xa2, 0xa3], .push3 0xa1a2a3),
     ([0x63, 0xa1, 0xa2, 0xa3, 0xa4], .push4 0xa1a2a3a4),
     ([0x64, 0xa1, 0xa2, 0xa3, 0xa4, 0xa5], .push5 0xa1a2a3a4a5),
     ([0x65, 0xa1, 0xa2, 0xa3, 0xa4, 0xa5, 0xa6], .push6 0xa1a2a3a4a5a6),
     ([0x66, 0xa1, 0xa2, 0xa3, 0xa4, 0xa5, 0xa6, 0xa7], .push7 0xa1a2a3a4a5a6a7),
     ([0x67, 0xa1, 0xa2, 0xa3, 0xa4, 0xa5, 0xa6, 0xa7, 0xa8], .push8 0xa1a2a3a4a5a6a7a8),
     ([0x68, 0xa1, 0xa2, 0xa3, 0xa4, 0xa5, 0xa6, 0xa7, 0xa8, 0xa9], .push9 0xa1a2a3a4a5a6a7a8a9),
     ([0x69, 0xa1, 0xa2, 0xa3, 0xa4, 0xa5, 0xa6, 0xa7, 0xa8, 0xa9, 0xaa], .push10 0xa1a2a3a4a5a6a7a8a9aa),
     ([0x6a, 0xa1, 0xa2, 0xa3, 0xa4, 0xa5, 0xa6, 0xa7, 0xa8, 0xa9, 0xaa, 0xab], .push11 0xa1a2a3a4a5a6a7a8a9aaab),
     ([0x6b, 0xa1, 0xa2, 0xa3, 0xa4, 0xa5, 0xa6, 0xa7, 0xa8, 0xa9, 0xaa, 0xab, 0xac], .push12 0xa1a2a3a4a5a6a7a8a9aaabac),
     ([0x6c, 0xa1, 0xa2, 0xa3, 0xa4, 0xa5, 0xa6, 0xa7, 0xa8, 0xa9, 0xaa, 0xab, 0xac, 0xad], .push13 0xa1a2a3a4a5a6a7a8a9aaabacad),
     ([0x6d, 0xa1, 0xa2, 0xa3, 0xa4, 0xa5, 0xa6, 0xa7, 0xa8, 0xa9, 0xaa, 0xab, 0xac, 0xad, 0xae], .push14 0xa1a2a3a4a5a6a7a8a9aaabacadae),
     ([0x6e, 0xa1, 0xa2, 0xa3, 0xa4, 0xa5, 0xa6, 0xa7, 0xa8, 0xa9, 0xaa, 0xab, 0xac, 0xad, 0xae, 0xaf], .push15 0xa1a2a3a4a5a6a7a8a9aaabacadaeaf),
     ([0x6f, 0xa1, 0xa2, 0xa3, 0xa4, 0xa5, 0xa6, 0xa7, 0xa8, 0xa9, 0xaa, 0xab, 0xac, 0xad, 0xae, 0xaf, 0xb0], .push16 0xa1a2a3a4a5a6a7a8a9aaabacadaeafb0)] : List (List Byte × Instr)),
    decode p.1 = .instr p.2 ∧ encode p.2 = p.1 := by decide +kernel

/-- 30_encoding.md R72, R76: PUSHn is 0x5f + n, then n bytes, the first the most significant. -/
theorem test_decode_push_long : ∀ p ∈
    ([([0x70, 0xa1, 0xa2, 0xa3, 0xa4, 0xa5, 0xa6, 0xa7, 0xa8, 0xa9, 0xaa, 0xab, 0xac, 0xad, 0xae, 0xaf, 0xb0, 0xb1], .push17 0xa1a2a3a4a5a6a7a8a9aaabacadaeafb0b1),
     ([0x71, 0xa1, 0xa2, 0xa3, 0xa4, 0xa5, 0xa6, 0xa7, 0xa8, 0xa9, 0xaa, 0xab, 0xac, 0xad, 0xae, 0xaf, 0xb0, 0xb1, 0xb2], .push18 0xa1a2a3a4a5a6a7a8a9aaabacadaeafb0b1b2),
     ([0x72, 0xa1, 0xa2, 0xa3, 0xa4, 0xa5, 0xa6, 0xa7, 0xa8, 0xa9, 0xaa, 0xab, 0xac, 0xad, 0xae, 0xaf, 0xb0, 0xb1, 0xb2, 0xb3], .push19 0xa1a2a3a4a5a6a7a8a9aaabacadaeafb0b1b2b3),
     ([0x73, 0xa1, 0xa2, 0xa3, 0xa4, 0xa5, 0xa6, 0xa7, 0xa8, 0xa9, 0xaa, 0xab, 0xac, 0xad, 0xae, 0xaf, 0xb0, 0xb1, 0xb2, 0xb3, 0xb4], .push20 0xa1a2a3a4a5a6a7a8a9aaabacadaeafb0b1b2b3b4),
     ([0x74, 0xa1, 0xa2, 0xa3, 0xa4, 0xa5, 0xa6, 0xa7, 0xa8, 0xa9, 0xaa, 0xab, 0xac, 0xad, 0xae, 0xaf, 0xb0, 0xb1, 0xb2, 0xb3, 0xb4, 0xb5], .push21 0xa1a2a3a4a5a6a7a8a9aaabacadaeafb0b1b2b3b4b5),
     ([0x75, 0xa1, 0xa2, 0xa3, 0xa4, 0xa5, 0xa6, 0xa7, 0xa8, 0xa9, 0xaa, 0xab, 0xac, 0xad, 0xae, 0xaf, 0xb0, 0xb1, 0xb2, 0xb3, 0xb4, 0xb5, 0xb6], .push22 0xa1a2a3a4a5a6a7a8a9aaabacadaeafb0b1b2b3b4b5b6),
     ([0x76, 0xa1, 0xa2, 0xa3, 0xa4, 0xa5, 0xa6, 0xa7, 0xa8, 0xa9, 0xaa, 0xab, 0xac, 0xad, 0xae, 0xaf, 0xb0, 0xb1, 0xb2, 0xb3, 0xb4, 0xb5, 0xb6, 0xb7], .push23 0xa1a2a3a4a5a6a7a8a9aaabacadaeafb0b1b2b3b4b5b6b7),
     ([0x77, 0xa1, 0xa2, 0xa3, 0xa4, 0xa5, 0xa6, 0xa7, 0xa8, 0xa9, 0xaa, 0xab, 0xac, 0xad, 0xae, 0xaf, 0xb0, 0xb1, 0xb2, 0xb3, 0xb4, 0xb5, 0xb6, 0xb7, 0xb8], .push24 0xa1a2a3a4a5a6a7a8a9aaabacadaeafb0b1b2b3b4b5b6b7b8),
     ([0x78, 0xa1, 0xa2, 0xa3, 0xa4, 0xa5, 0xa6, 0xa7, 0xa8, 0xa9, 0xaa, 0xab, 0xac, 0xad, 0xae, 0xaf, 0xb0, 0xb1, 0xb2, 0xb3, 0xb4, 0xb5, 0xb6, 0xb7, 0xb8, 0xb9], .push25 0xa1a2a3a4a5a6a7a8a9aaabacadaeafb0b1b2b3b4b5b6b7b8b9),
     ([0x79, 0xa1, 0xa2, 0xa3, 0xa4, 0xa5, 0xa6, 0xa7, 0xa8, 0xa9, 0xaa, 0xab, 0xac, 0xad, 0xae, 0xaf, 0xb0, 0xb1, 0xb2, 0xb3, 0xb4, 0xb5, 0xb6, 0xb7, 0xb8, 0xb9, 0xba], .push26 0xa1a2a3a4a5a6a7a8a9aaabacadaeafb0b1b2b3b4b5b6b7b8b9ba),
     ([0x7a, 0xa1, 0xa2, 0xa3, 0xa4, 0xa5, 0xa6, 0xa7, 0xa8, 0xa9, 0xaa, 0xab, 0xac, 0xad, 0xae, 0xaf, 0xb0, 0xb1, 0xb2, 0xb3, 0xb4, 0xb5, 0xb6, 0xb7, 0xb8, 0xb9, 0xba, 0xbb], .push27 0xa1a2a3a4a5a6a7a8a9aaabacadaeafb0b1b2b3b4b5b6b7b8b9babb),
     ([0x7b, 0xa1, 0xa2, 0xa3, 0xa4, 0xa5, 0xa6, 0xa7, 0xa8, 0xa9, 0xaa, 0xab, 0xac, 0xad, 0xae, 0xaf, 0xb0, 0xb1, 0xb2, 0xb3, 0xb4, 0xb5, 0xb6, 0xb7, 0xb8, 0xb9, 0xba, 0xbb, 0xbc], .push28 0xa1a2a3a4a5a6a7a8a9aaabacadaeafb0b1b2b3b4b5b6b7b8b9babbbc),
     ([0x7c, 0xa1, 0xa2, 0xa3, 0xa4, 0xa5, 0xa6, 0xa7, 0xa8, 0xa9, 0xaa, 0xab, 0xac, 0xad, 0xae, 0xaf, 0xb0, 0xb1, 0xb2, 0xb3, 0xb4, 0xb5, 0xb6, 0xb7, 0xb8, 0xb9, 0xba, 0xbb, 0xbc, 0xbd], .push29 0xa1a2a3a4a5a6a7a8a9aaabacadaeafb0b1b2b3b4b5b6b7b8b9babbbcbd),
     ([0x7d, 0xa1, 0xa2, 0xa3, 0xa4, 0xa5, 0xa6, 0xa7, 0xa8, 0xa9, 0xaa, 0xab, 0xac, 0xad, 0xae, 0xaf, 0xb0, 0xb1, 0xb2, 0xb3, 0xb4, 0xb5, 0xb6, 0xb7, 0xb8, 0xb9, 0xba, 0xbb, 0xbc, 0xbd, 0xbe], .push30 0xa1a2a3a4a5a6a7a8a9aaabacadaeafb0b1b2b3b4b5b6b7b8b9babbbcbdbe),
     ([0x7e, 0xa1, 0xa2, 0xa3, 0xa4, 0xa5, 0xa6, 0xa7, 0xa8, 0xa9, 0xaa, 0xab, 0xac, 0xad, 0xae, 0xaf, 0xb0, 0xb1, 0xb2, 0xb3, 0xb4, 0xb5, 0xb6, 0xb7, 0xb8, 0xb9, 0xba, 0xbb, 0xbc, 0xbd, 0xbe, 0xbf], .push31 0xa1a2a3a4a5a6a7a8a9aaabacadaeafb0b1b2b3b4b5b6b7b8b9babbbcbdbebf),
     ([0x7f, 0xa1, 0xa2, 0xa3, 0xa4, 0xa5, 0xa6, 0xa7, 0xa8, 0xa9, 0xaa, 0xab, 0xac, 0xad, 0xae, 0xaf, 0xb0, 0xb1, 0xb2, 0xb3, 0xb4, 0xb5, 0xb6, 0xb7, 0xb8, 0xb9, 0xba, 0xbb, 0xbc, 0xbd, 0xbe, 0xbf, 0xc0], .push32 0xa1a2a3a4a5a6a7a8a9aaabacadaeafb0b1b2b3b4b5b6b7b8b9babbbcbdbebfc0)] : List (List Byte × Instr)),
    decode p.1 = .instr p.2 ∧ encode p.2 = p.1 := by decide +kernel

/-- 30_encoding.md R82: the selects of the port's functions that have no opcode; R77: as opcodes they are unassigned. -/
theorem test_decode_port : ∀ p ∈ ([(0xc0, .neg), (0xc1, .isneg), (0xc2, .rol), (0xc3, .ror)] : List (Byte × Instr)),
    decodeSelect p.1 = some p.2 ∧ decode [p.1] = .unassigned p.1 ∧ decodeTableWord 8 p.1.toNat = some p.2 := by decide

/-- 20_memory.md R52, 44_seq_stack_control.md R174: missing bytes read as 0x00; 30_encoding.md R77: unassigned values refuse. -/
theorem test_decode_edges : decode [] = .instr .stop ∧ decode [0x61, 0xab] = .instr (.push2 0xab00) ∧
    decode [0x5f] = .unassigned 0x5f ∧ decode [0xfe] = .unassigned 0xfe ∧ decode [0x0c] = .unassigned 0x0c := by decide

/-- 43_instruction_table.md R158, V-IT-24: 139 assigned values. -/
theorem test_assigned_values :
    ((List.range 256).filter fun v => (lookupByValue (BitVec.ofNat 8 v)).isSome).length = 139 := by decide +kernel

/-! Arithmetic, from the vectors of 95_test_vectors.md. -/

/-- V-ADD-2. -/
theorem test_add_wraps : stepStack [0x01] [wordOnes, 1] = some ([0], 1, .running) := by decide
/-- V-MUL-7. -/
theorem test_mul_wraps : stepStack [0x02] [wordOnes, 2] = some ([wordOnes - 1], 1, .running) := by decide
/-- V-SUB-2, V-SUB-1: the top is the minuend. -/
theorem test_sub_order : stepStack [0x03] [7, 5] = some ([2], 1, .running) ∧
    stepStack [0x03] [5, 7, 9] = some ([wordOnes - 1, 9], 1, .running) := by decide
/-- V-DIV-1, V-DIV-2. -/
theorem test_div : stepStack [0x04] [7, 2] = some ([3], 1, .running) ∧ stepStack [0x04] [7, 0] = some ([0], 1, .running) := by
  decide
/-- V-SDIV-2. -/
theorem test_sdiv_truncates : stepStack [0x05] [wordOnes - 6, 2] = some ([wordOnes - 2], 1, .running) := by decide
/-- V-SDIV-6, source scenario S14. -/
theorem test_sdiv_overflow : stepStack [0x05] [wordMin, wordOnes] = some ([wordMin], 1, .running) := by decide
/-- V-MOD-1, V-MOD-4. -/
theorem test_mod : stepStack [0x06] [7, 2] = some ([1], 1, .running) ∧
    stepStack [0x06] [wordOnes, wordMin] = some ([wordMaxS], 1, .running) := by decide
/-- V-SMOD-2, V-SMOD-3: the sign of the dividend. -/
theorem test_smod_sign : stepStack [0x07] [wordOnes - 6, 3] = some ([wordOnes], 1, .running) ∧
    stepStack [0x07] [7, wordOnes - 2] = some ([1], 1, .running) := by decide
/-- V-AM-2. -/
theorem test_addmod_wide : stepStack [0x08] [wordOnes, wordOnes, 7] = some ([2], 1, .running) := by decide
/-- V-MM-2. -/
theorem test_mulmod_wide : stepStack [0x09] [wordOnes, wordOnes, 12] = some ([9], 1, .running) := by decide
/-- V-EXP-1, V-EXP-5: the top is the base. -/
theorem test_exp : stepStack [0x0a] [3, 4] = some ([0x51], 1, .running) ∧
    stepStack [0x0a] [2, 0xff] = some ([wordMin], 1, .running) := by decide +kernel
/-- V-SE-5, V-ST-36. -/
theorem test_signextend : stepStack [0x0b] [1, 0x8000] = some ([wordOnes - 0x7fff], 1, .running) ∧
    stepStack [0x0b] [0, 0x7f] = some ([0x7f], 1, .running) := by decide
/-- V-ST-34, V-ST-35. -/
theorem test_signextend_out_of_range : stepStack [0x0b] [0x20, 0x80] = some ([0x80], 1, .running) ∧
    after (step { atStart [0x0b] [0x20, 0x80] with
      cfg := { LaunchConfig.atReset with code := [0x0b], signextendOor := .fault } }) (fun t => (t.stack, t.pc, t.halt)) =
      some ([0x20, 0x80], 0, .exception .rangeError) := by decide

/-! Comparison, bitwise and shift. -/

/-- V-LT-1, V-LT-4. -/
theorem test_lt : stepStack [0x10] [1, 2] = some ([1], 1, .running) ∧ stepStack [0x10] [0, wordOnes] = some ([1], 1, .running) := by
  decide
/-- R122: the mirror of V-LT-1 and V-LT-4. -/
theorem test_gt : stepStack [0x11] [2, 1] = some ([1], 1, .running) ∧ stepStack [0x11] [0, wordOnes] = some ([0], 1, .running) := by
  decide
/-- V-SLT-2, V-SLT-5. -/
theorem test_slt : stepStack [0x12] [wordOnes, 0] = some ([1], 1, .running) ∧
    stepStack [0x12] [wordMaxS, wordMin] = some ([0], 1, .running) := by decide
/-- V-SGT-2, V-SGT-3. -/
theorem test_sgt : stepStack [0x13] [0, wordOnes] = some ([1], 1, .running) ∧
    stepStack [0x13] [wordOnes, 0] = some ([0], 1, .running) := by decide
/-- V-EQ-1, V-EQ-2. -/
theorem test_eq : stepStack [0x14] [0x1fe, 0x1fe] = some ([1], 1, .running) ∧
    stepStack [0x14] [0, wordMin] = some ([0], 1, .running) := by decide
/-- V-ISZ-1, V-ISZ-3. -/
theorem test_iszero : stepStack [0x15] [0] = some ([1], 1, .running) ∧ stepStack [0x15] [wordMin] = some ([0], 1, .running) := by
  decide
/-- V-AND-1. -/
theorem test_and : stepStack [0x16] [0xf0f0, 0xff00] = some ([0xf000], 1, .running) := by decide
/-- V-OR-1. -/
theorem test_or : stepStack [0x17] [0xf0f0, 0xff00] = some ([0xfff0], 1, .running) := by decide
/-- V-XOR-1. -/
theorem test_xor : stepStack [0x18] [0xf0f0, 0xff00] = some ([0xff0], 1, .running) := by decide
/-- V-NOT-3. -/
theorem test_not : stepStack [0x19] [wordMin] = some ([wordMaxS], 1, .running) := by decide
/-- V-BYTE-7, V-BYTE-4. -/
theorem test_byte : stepStack [0x1a] [0x1f, 0x1fe] = some ([0xfe], 1, .running) ∧
    stepStack [0x1a] [0x20, wordOnes] = some ([0], 1, .running) := by decide
/-- V-SHL-1, V-SHL-9: the amount is on top and is not reduced. -/
theorem test_shl : stepStack [0x1b] [4, 1] = some ([0x10], 1, .running) ∧ stepStack [0x1b] [0x101, 1] = some ([0], 1, .running) := by
  decide
/-- V-SHR-3, V-SHR-5. -/
theorem test_shr : stepStack [0x1c] [0xff, wordMin] = some ([1], 1, .running) ∧
    stepStack [0x1c] [0x100, wordOnes] = some ([0], 1, .running) := by decide
/-- V-SAR-1, V-SAR-7. -/
theorem test_sar : stepStack [0x1d] [1, wordOnes - 1] = some ([wordOnes], 1, .running) ∧
    stepStack [0x1d] [0x100, wordMin] = some ([wordOnes], 1, .running) := by decide
/-- V-NEG-2, V-NEG-4. -/
theorem test_neg : askPort 0xc0 1 0 = some (some (.result wordOnes)) ∧ askPort 0xc0 wordMin 0 = some (some (.result wordMin)) := by
  decide
/-- V-ISN-2, V-ISN-3. -/
theorem test_isneg : askPort 0xc1 wordMin 0 = some (some (.result 1)) ∧ askPort 0xc1 wordMaxS 0 = some (some (.result 0)) := by
  decide
/-- V-ROL-4, V-ROL-6. -/
theorem test_rol : askPort 0xc2 1 wordMin = some (some (.result 1)) ∧
    askPort 0xc2 0x104 (wordMin + 1) = some (some (.result 0x18)) := by decide
/-- V-ROR-4, V-ROR-1. -/
theorem test_ror : askPort 0xc3 1 1 = some (some (.result wordMin)) ∧ askPort 0xc3 4 0x10 = some (some (.result 1)) := by decide
/-- V-FN-1, V-FN-2, V-SE-10. -/
theorem test_port_errors : askPort 0x00 1 2 = some (some (.error .invalidInstruction)) ∧
    askPort 0x0c 1 2 = some (some (.error .invalidInstruction)) ∧
    askPort 0x0b 0x20 2 = some (some (.error .rangeError)) := by decide
/-- V-WORD-4, V-WORD-7. -/
theorem test_word_construct : wordConstruct [0x0f, 0x00, 0xab] = .result 0xf00ab ∧
    wordConstruct (List.replicate 33 0) = .error .overflow := by decide

/-! Stack and control flow. -/

/-- V-ST-31: STOP; V-ST-32: the implicit STOP. -/
theorem test_stop : stepStack [0x00] [4] = some ([4], 0, .normal) ∧ stepStack [] [4] = some ([4], 0, .normal) := by decide
/-- V-ST-9. -/
theorem test_pop : stepStack [0x50] [7, 9] = some ([9], 1, .running) := by decide
/-- V-ST-15, V-ST-16. -/
theorem test_push2 : stepStack [0x61, 0xab, 0xcd] [] = some ([0xabcd], 3, .running) ∧
    stepStack [0x61, 0xab] [] = some ([0xab00], 3, .running) := by decide
/-- R176: every PUSHn over a code cut after its opcode pushes 0 and goes on `1 + n` bytes. -/
theorem test_push_lengths : ∀ n ∈ List.range 32,
    stepStack [BitVec.ofNat 8 (0x60 + n)] [9] = some ([0, 9], 2 + n, .running) := by decide
/-- R177: DUPn on the stack 1, 2, …, 16. -/
theorem test_dup_depths : ∀ n ∈ List.range 16,
    (stepStack [BitVec.ofNat 8 (0x80 + n)] ((List.range 16).map fun k => BitVec.ofNat 256 (k + 1))).map (fun r => (r.1.headD 0, r.2)) =
      some (BitVec.ofNat 256 (n + 1), 1, .running) := by decide +kernel
/-- V-ST-13. -/
theorem test_swap2 : stepStack [0x91] [1, 2, 3] = some ([3, 2, 1], 1, .running) := by decide
/-- R178: SWAPn on the stack 1, 2, …, 17 brings `n + 1` to the top and 1 to depth `n`. -/
theorem test_swap_depths : ∀ n ∈ List.range 16,
    (stepStack [BitVec.ofNat 8 (0x90 + n)] ((List.range 17).map fun k => BitVec.ofNat 256 (k + 1))).map
        (fun r => (r.1.headD 0, r.1.getD (n + 1) 0, r.1.length)) =
      some (BitVec.ofNat 256 (n + 2), 1, 17) := by decide +kernel
/-- V-ST-20, V-ST-23: the target is the whole word. -/
theorem test_jump : stepStack [0x56, 0x5b] [1] = some ([], 1, .running) ∧
    stepStack [0x56, 0x5b] [0x100000001] = some ([0x100000001], 0, .exception .invalidJump) := by decide
/-- V-ST-28: a marker inside an immediate is no destination. -/
theorem test_jump_into_immediate : stepStack [0x56, 0x60, 0x5b] [2] = some ([2], 0, .exception .invalidJump) := by decide
/-- V-ST-25, V-ST-26: any nonzero word is true; with a zero condition the target is not examined. -/
theorem test_jumpi : stepStack [0x57, 0x5b] [1, wordMin] = some ([], 1, .running) ∧
    stepStack [0x57, 0x5b] [7, 0] = some ([], 1, .running) := by decide
/-- R181: the offset of PC itself. -/
theorem test_pc : after (step { atStart [0x5b, 0x58] [] with pc := 1 }) (fun t => (t.stack, t.pc)) = some ([1], 2) := by decide
/-- V-ST-19. -/
theorem test_jumpdest : stepStack [0x5b] [3] = some ([3], 1, .running) := by decide
/-- V-ST-51, V-ST-52. -/
theorem test_return : after (step (atStart [0xf3] [0, 2])) (fun t => (t.ret, t.halt, t.msize)) = some ([0, 0], .normal, 32) ∧
    stepStack [0xf3] [wordOnes, 1] = some ([wordOnes, 1], 0, .exception .outOfResource) := by decide
/-- V-ST-53, V-ST-50 for REVERT: with size 0 the offset is not examined. -/
theorem test_revert : after (step (atStart [0xfd] [wordOnes, 0])) (fun t => (t.ret, t.halt, t.msize)) = some ([], .revert, 0) := by
  decide

/-! Memory. -/

/-- V-ST-41, V-ST-42. -/
theorem test_mload_limit : after (step (atStart [0x51] [0xfffe0])) (fun t => (t.stack, t.msize)) = some ([0], 1048576) ∧
    stepStack [0x51] [0xfffe1] = some ([0xfffe1], 0, .exception .outOfResource) := by decide
/-- P3: the word 0x1FE at 0 and the byte 0xAB at 32, loaded at 1. -/
theorem test_mload_unaligned :
    after (step { atStart [0x51] [1] with mem := [(30, 0x01), (31, 0xfe), (32, 0xab)], msize := 64 })
      (fun t => (t.stack, t.msize)) = some ([0x1feab], 64) := by decide
/-- P3, V-ST-44: big-endian. -/
theorem test_mstore : after (step (atStart [0x52] [0, 0x1fe])) (fun t => (t.mem, t.msize, t.stack)) =
    some ([(30, 0x01), (31, 0xfe)], 32, []) := by decide
/-- V-ST-46. -/
theorem test_mstore8 : after (step (atStart [0x53] [0x20, 0x1fe])) (fun t => (t.mem, t.msize, t.stack)) =
    some ([(0x20, 0xfe)], 64, []) := by decide
/-- R203. -/
theorem test_msize : after (step { atStart [0x59] [] with msize := 64 }) (fun t => (t.stack, t.pc)) = some ([64], 1) := by decide

/-! Class EXT, exceptions, the host, reset. -/

/-- V-ST-55 and R76: every opcode of class EXT hands off when its operands are there. -/
theorem test_ext_handoff : ∀ p ∈
    ([(.sha3, 0x20, 2, 1), (.address, 0x30, 0, 1), (.balance, 0x31, 1, 1), (.origin, 0x32, 0, 1),
     (.caller, 0x33, 0, 1), (.callvalue, 0x34, 0, 1), (.calldataload, 0x35, 1, 1), (.calldatasize, 0x36, 0, 1),
     (.calldatacopy, 0x37, 3, 0), (.codesize, 0x38, 0, 1), (.codecopy, 0x39, 3, 0), (.gasprice, 0x3a, 0, 1),
     (.extcodesize, 0x3b, 1, 1), (.extcodecopy, 0x3c, 4, 0), (.returndatasize, 0x3d, 0, 1),
     (.returndatacopy, 0x3e, 3, 0), (.extcodehash, 0x3f, 1, 1), (.blockhash, 0x40, 1, 1),
     (.coinbase, 0x41, 0, 1), (.timestamp, 0x42, 0, 1), (.number, 0x43, 0, 1), (.difficulty, 0x44, 0, 1),
     (.gaslimit, 0x45, 0, 1), (.sload, 0x54, 1, 1), (.sstore, 0x55, 2, 0), (.gas, 0x5a, 0, 1),
     (.log0, 0xa0, 2, 0), (.log1, 0xa1, 3, 0), (.log2, 0xa2, 4, 0), (.log3, 0xa3, 5, 0), (.log4, 0xa4, 6, 0),
     (.create, 0xf0, 3, 1), (.call, 0xf1, 7, 1), (.callcode, 0xf2, 7, 1), (.delegatecall, 0xf4, 6, 1),
     (.create2, 0xf5, 4, 1), (.staticcall, 0xfa, 6, 1), (.selfdestruct, 0xff, 1, 0)] :
      List (Instr × Byte × Nat × Nat)),
    after (step (atStart [p.2.1] (List.replicate p.2.2.1 5))) (fun t => (t.ext, t.pc, t.stack, t.trace)) =
      some (true, 0, List.replicate p.2.2.1 5, []) := by decide
/-- V-ST-2, V-ST-3, V-ST-5, V-ST-64: the order of the checks. -/
theorem test_check_order :
    after (step { atStart [0x01] [] with cfg := { LaunchConfig.atReset with code := [0x01], active := 0 } }) (fun t => t.halt) =
      some (.exception .illegalOperation) ∧
    after (step { atStart [0x01] [] with host := { HostSide.atReset with meter := some 0 } }) (fun t => t.halt) =
      some (.exception .stackUnderflow) ∧
    after (step { atStart [0x01] [5, 7] with host := { HostSide.atReset with meter := some 0 } }) (fun t => t.halt) =
      some (.exception .outOfResource) ∧
    after (step (atStart [0xfe] [])) (fun t => t.halt) = some (.exception .invalidInstruction) := by decide
/-- V-ST-7: DUP1 needs room for one more word. -/
theorem test_overflow : after (step { atStart [0x80] [9, 9, 9, 9] with stackLimit := 4 }) (fun t => (t.stack, t.halt)) =
    some ([9, 9, 9, 9], .exception .stackOverflow) := by decide
/-- R172: the trace event of ADD. -/
theorem test_trace_event : after (step (atStart [0x01] [1, 2])) (fun t => t.trace) =
    some [{ pc := 0, opcode := 0x01, stack := [3] }] := by decide
/-- R210 path 1: SLOAD completed by the host. -/
theorem test_host_completes :
    after (step { atStart [0x54] [5, 6] with ext := true, host := { HostSide.atReset with actions := [.complete [9] [] []] } })
      (fun t => (t.stack, t.pc, t.ext, t.trace)) =
      some ([9, 6], 1, false, [{ pc := 0, opcode := 0x54, stack := [9, 6] }]) := by decide
/-- R245: SELFDESTRUCT has the halt path only. -/
theorem test_selfdestruct_is_not_completed :
    refusal (step { atStart [0xff] [5] with ext := true, host := { HostSide.atReset with actions := [.complete [] [] []] } }) =
      some .hostProtocol ∧
    after (step { atStart [0xff] [5] with ext := true, host := { HostSide.atReset with actions := [.halt .normal] } })
      (fun t => (t.stack, t.pc, t.ext, t.halt)) = some ([5], 0, false, .normal) := by decide
/-- R340: reset from a halted state keeps the code. -/
theorem test_reset :
    after (step { atStart [0x54] [5, 6] with
      halt := .revert
      pc := 7
      host := { HostSide.atReset with reset := some { load := none, writes := [], meter := none } } })
      (fun t => (t.stack, t.pc, t.halt, t.cfg.code)) = some ([], 0, .running, [0x54]) := by decide
/-- R38, R342: a reset after the host wrote the code, `CODELEN`, `ACTIVE` and `OPTS` by number, bits 7:2 of which are ignored;
one that leaves a byte of the code unwritten is refused (U3). -/
theorem test_load_by_number :
    after (step { State.reset with host := { HostSide.atReset with reset := some {
      load := none, writes := [.code 1 0x5b, .reg 5 2, .reg 6 7, .reg 9 0xfd, .code 0 0x01], meter := none } } }) (fun t => t.cfg) =
      some { code := [0x01, 0x5b], active := 7, signextendOor := .fault, jumpdestRequired := false } ∧
    refusal (step { State.reset with host := { HostSide.atReset with reset := some {
      load := none, writes := [.code 1 0x5b, .reg 5 2], meter := none } } }) = some .badConfiguration := by decide
/-- V-HEX-4 and V-IT-10, V-IT-11, V-IT-14. -/
theorem test_texts : toCompactHex 0xab00 = "0xAB00" ∧ lookupByName " ADD\t\n" = true ∧ lookupByName "add" = false ∧
    lookupByName "ADD\u00A0" = false := by decide
/-- An instruction of the opcode table is placed where the next step runs it. -/
theorem test_withFetchWord : after (step (State.reset.withFetchWord 16 0xab60)) (fun t => (t.stack, t.pc)) = some ([0xab], 2) ∧
    after (step (State.reset.withFetchWord 8 0xc0)) (fun t => t.host.answer) = some (some (.result 0)) := by decide

/-! Witnesses for the hypotheses of the statements. -/

/-- A state with seven words on the stack, ready for any opcode. -/
def seven : State := atStart [] [1, 2, 3, 4, 5, 6, 7]

theorem witness_AddMulSubWrapModTwoPow256 : seven.stack = 1 :: 2 :: [3, 4, 5, 6, 7] ∧
    seven.Ready 0x01 2 1 ∧ seven.Ready 0x02 2 1 ∧ seven.Ready 0x03 2 1 := by decide
theorem witness_DivModUnsignedZeroDivisorIsZero : seven.Ready 0x04 2 1 ∧ seven.Ready 0x06 2 1 ∧
    (atStart [] [1, 0]).stack = 1 :: 0 :: [] ∧ (atStart [] [1, 0]).Ready 0x04 2 1 ∧ (atStart [] [1, 0]).Ready 0x06 2 1 := by decide
theorem witness_SdivSmodSignedTruncated : (atStart [] [wordMin, wordOnes]).stack = wordMin :: wordOnes :: [] ∧
    (atStart [] [wordMin, wordOnes]).Ready 0x05 2 1 ∧ (atStart [] [wordMin, wordOnes]).Ready 0x07 2 1 := by decide
theorem witness_AddmodMulmodUnboundedIntermediate : seven.stack = 1 :: 2 :: 3 :: [4, 5, 6, 7] ∧
    seven.Ready 0x08 3 1 ∧ seven.Ready 0x09 3 1 := by decide
theorem witness_ExpIsPowerModTwoPow256 : seven.stack = 1 :: 2 :: [3, 4, 5, 6, 7] ∧ seven.Ready 0x0a 2 1 := by decide

/-- SIGNEXTEND with an index and a setting of `SIGNEXTEND_OOR`. -/
def extending (k : Word) (so : SignextendOor) : State :=
  { atStart [] [k, 0x80] with cfg := { LaunchConfig.atReset with signextendOor := so } }

theorem witness_SignextendFunctionAndInstruction :
    31 < (32 : Word).toNat ∧ (31 : Word).toNat ≤ 31 ∧
    ((extending 31 .fault).stack = 31 :: 0x80 :: [] ∧ (extending 31 .fault).Ready 0x0b 2 1) ∧
    ((extending 32 .passthrough).stack = 32 :: 0x80 :: [] ∧ (extending 32 .passthrough).Ready 0x0b 2 1 ∧
      (extending 32 .passthrough).cfg.signextendOor = .passthrough) ∧
    ((extending 32 .fault).stack = 32 :: 0x80 :: [] ∧ (extending 32 .fault).Ready 0x0b 2 1 ∧
      (extending 32 .fault).cfg.signextendOor = .fault) := by decide
theorem witness_ComparisonsAnswerOneOrZero : seven.stack = 1 :: 2 :: [3, 4, 5, 6, 7] ∧ seven.Ready 0x10 2 1 ∧
    seven.Ready 0x11 2 1 ∧ seven.Ready 0x12 2 1 ∧ seven.Ready 0x13 2 1 ∧ seven.Ready 0x14 2 1 := by decide
theorem witness_IszeroAndNot : seven.stack = 1 :: [2, 3, 4, 5, 6, 7] ∧ seven.Ready 0x15 1 1 ∧ seven.Ready 0x19 1 1 := by decide
theorem witness_BitwiseAndOrXor : seven.stack = 1 :: 2 :: [3, 4, 5, 6, 7] ∧ seven.Ready 0x16 2 1 ∧ seven.Ready 0x17 2 1 ∧
    seven.Ready 0x18 2 1 := by decide
theorem witness_ByteSelectsBigIndex : (atStart [] [32, 1]).stack = 32 :: 1 :: [] ∧ (atStart [] [32, 1]).Ready 0x1a 2 1 ∧
    (atStart [] [31, 1]).Ready 0x1a 2 1 := by decide
theorem witness_ShiftsByFullAmount : (atStart [] [256, 1]).stack = 256 :: 1 :: [] ∧ (atStart [] [256, 1]).Ready 0x1b 2 1 ∧
    (atStart [] [255, 1]).Ready 0x1c 2 1 ∧ (atStart [] [256, wordMin]).Ready 0x1d 2 1 := by decide
theorem witness_RotatesAtThePort : (0 < 256 ∧ 255 < 256) ∧ aluRol 1 wordMin = 1 := by decide
theorem witness_WordConstructionRightAligned : 32 < (List.replicate 33 (0xff : Byte)).length ∧
    ((List.replicate 32 (0xff : Byte)).length ≤ 32 ∧ 31 < (List.replicate 32 (0xff : Byte)).length) ∧
    ((List.replicate 31 (0xff : Byte)).length ≤ 31 ∧ 31 < 32) := by decide

/-- The reset state with a request at the ALU port. -/
def asking (r : PortRequest) : State := { State.reset with host := { HostSide.atReset with request := some r } }

theorem witness_PortRequestsLeaveTheBlockAlone :
    ((asking (.select 0x00)).host.reset = none ∧ (asking (.select 0x00)).host.request = some (.select 0x00)) ∧
    ((asking (.load [])).host.reset = none ∧ (asking (.load [])).host.request = some (.load [])) := by decide
theorem witness_StopHaltsNormally : State.reset.Ready 0x00 0 0 := by decide
theorem witness_FetchPastTheEndIsStop :
    (State.reset.Enabled ∧ State.reset.cfg.code.length ≤ State.reset.pc ∧ State.reset.Ready 0x00 0 0) ∧
    (let s : State := { State.reset with cfg := { LaunchConfig.atReset with active := 0 } }
     s.Enabled ∧ s.cfg.code.length ≤ s.pc ∧ s.cfg.active.getLsbD 0 = false) := by decide
theorem witness_ReturnAndRevertOutput :
    ((atStart [] [wordOnes, 0]).stack = wordOnes :: 0 :: [] ∧ (atStart [] [wordOnes, 0]).Ready 0xf3 2 0 ∧
      (atStart [] [wordOnes, 0]).Ready 0xfd 2 0 ∧ (0 : Word).toNat = 0) ∧
    ((atStart [] [0xfffff, 1]).Ready 0xf3 2 0 ∧ (atStart [] [0xfffff, 1]).Ready 0xfd 2 0 ∧
      (0xfffff : Word).toNat + (1 : Word).toNat ≤ (atStart [] [0xfffff, 1]).memLimit) ∧
    ((atStart [] [0x100000, 1]).Ready 0xf3 2 0 ∧ (atStart [] [0x100000, 1]).Ready 0xfd 2 0 ∧ (1 : Word).toNat ≠ 0 ∧
      (atStart [] [0x100000, 1]).memLimit < (0x100000 : Word).toNat + (1 : Word).toNat) := by decide
theorem witness_PopRemovesTheTop : (atStart [] [1]).stack = 1 :: [] ∧ (atStart [] [1]).Ready 0x50 1 0 := by decide
theorem witness_PushesTheImmediateWord : ∀ n ∈ List.range 32, State.reset.Ready (BitVec.ofNat 8 (0x5f + (n + 1))) 0 1 := by decide
theorem witness_PushReadsItsBytesFromTheCode : ∀ n ∈ ([1, 2, 31, 32] : List Nat),
    let s := atStart [BitVec.ofNat 8 (0x5f + n), 0xab] []
    1 ≤ n ∧ n ≤ 32 ∧ s.Enabled ∧ s.codeRead s.pc = BitVec.ofNat 8 (0x5f + n) ∧ s.Ready (BitVec.ofNat 8 (0x5f + n)) 0 1 := by decide
theorem witness_DupCopiesTheEntryAtDepth : ∀ n ∈ List.range 16,
    let s := atStart [] (List.replicate (n + 1) 7)
    s.stack[n + 1 - 1]? = some 7 ∧ s.Ready (BitVec.ofNat 8 (0x7f + (n + 1))) (n + 1) (n + 2) := by decide
theorem witness_SwapExchangesTopAndDepth : ∀ n ∈ List.range 16,
    let s := atStart [] (1 :: (List.replicate n 7 ++ 2 :: []))
    (List.replicate n (7 : Word)).length = n + 1 - 1 ∧ s.stack = 1 :: (List.replicate n 7 ++ 2 :: []) ∧
      s.Ready (BitVec.ofNat 8 (0x8f + (n + 1))) (n + 2) (n + 2) := by decide
theorem witness_JumpGoesToAValidDestination :
    (let s := atStart [0x56, 0x5b] [1]
     s.stack = 1 :: [] ∧ s.Ready 0x56 1 0 ∧ (1 : Word).toNat ∈ jumpDests s.cfg.code s.cfg.jumpdestRequired) ∧
    (let s := atStart [0x56, 0x5b] [2]
     s.stack = 2 :: [] ∧ s.Ready 0x56 1 0 ∧ (2 : Word).toNat ∉ jumpDests s.cfg.code s.cfg.jumpdestRequired) := by decide
theorem witness_JumpiTestsTheCondition :
    (let s := atStart [0x57, 0x5b] [2, 0]
     s.stack = 2 :: 0 :: [] ∧ s.Ready 0x57 2 0 ∧ (0 : Word).toNat = 0) ∧
    (let s := atStart [0x57, 0x5b] [1, 1]
     s.stack = 1 :: 1 :: [] ∧ s.Ready 0x57 2 0 ∧ (1 : Word).toNat ≠ 0 ∧
       (1 : Word).toNat ∈ jumpDests s.cfg.code s.cfg.jumpdestRequired) ∧
    (let s := atStart [0x57, 0x5b] [2, 1]
     s.stack = 2 :: 1 :: [] ∧ s.Ready 0x57 2 0 ∧ (1 : Word).toNat ≠ 0 ∧
       (2 : Word).toNat ∉ jumpDests s.cfg.code s.cfg.jumpdestRequired) := by decide
theorem witness_BoundariesAreTheLinearSweep :
    0 ∈ boundaries [0x60, 0x5b, 0x00] ∧ 0 + opcodeLength (([0x60, 0x5b, 0x00] : List Byte).getD 0 0) < 3 ∧
    boundaries [0x60, 0x5b, 0x00] = [0, 2] ∧ boundaries [0x60, 0x5b] = [0] := by decide
theorem witness_PcMsizeAndJumpdest : State.reset.Ready 0x58 0 1 ∧ State.reset.Ready 0x59 0 1 ∧ State.reset.Ready 0x5b 0 0 := by decide
theorem witness_MloadReadsThirtyTwoBytes :
    ((atStart [] [0xfffe0]).stack = 0xfffe0 :: [] ∧ (atStart [] [0xfffe0]).Ready 0x51 1 1 ∧
      (0xfffe0 : Word).toNat + 32 ≤ (atStart [] [0xfffe0]).memLimit) ∧
    ((atStart [] [0xfffe1]).Ready 0x51 1 1 ∧ (atStart [] [0xfffe1]).memLimit < (0xfffe1 : Word).toNat + 32) := by decide
theorem witness_MstoreWritesThirtyTwoBytes :
    ((atStart [] [0xfffe0, 1]).mem.wf = true ∧ (atStart [] [0xfffe0, 1]).stack = 0xfffe0 :: 1 :: [] ∧
      (atStart [] [0xfffe0, 1]).Ready 0x52 2 0 ∧ (0xfffe0 : Word).toNat + 32 ≤ (atStart [] [0xfffe0, 1]).memLimit) ∧
    ((atStart [] [0xfffe1, 1]).mem.wf = true ∧ (atStart [] [0xfffe1, 1]).Ready 0x52 2 0 ∧
      (atStart [] [0xfffe1, 1]).memLimit < (0xfffe1 : Word).toNat + 32) := by decide
theorem witness_MstoreEightWritesTheLowByte :
    ((atStart [] [0xfffff, 1]).mem.wf = true ∧ (atStart [] [0xfffff, 1]).stack = 0xfffff :: 1 :: [] ∧
      (atStart [] [0xfffff, 1]).Ready 0x53 2 0 ∧ (0xfffff : Word).toNat + 1 ≤ (atStart [] [0xfffff, 1]).memLimit) ∧
    ((atStart [] [0x100000, 1]).mem.wf = true ∧ (atStart [] [0x100000, 1]).Ready 0x53 2 0 ∧
      (atStart [] [0x100000, 1]).memLimit < (0x100000 : Word).toNat + 1) := by decide

/-- A store of a word at offset 1. -/
def storing : State := atStart [] [1, 0x1fe]

theorem witness_LoadAfterStoreReturnsTheWord :
    let t := nextOr storing (exec .mstore storing)
    let l : State := { t with stack := 1 :: t.stack }
    storing.mem.wf = true ∧ storing.stack = 1 :: 0x1fe :: [] ∧ exec .mstore storing = .next t ∧ t.halt = storing.halt ∧
      storing.halt = .running ∧ exec .mload l = .next (nextOr l (exec .mload l)) ∧
      (nextOr l (exec .mload l)).halt = .running :=
  ⟨rfl, rfl, rfl, rfl, rfl, rfl, rfl⟩
theorem witness_MemoryReadAfterWrite : Memory.wf [(0, 1), (5, 0xff)] = true ∧ Memory.wf [] = true := by decide
theorem witness_ExtInstructionsHandOff : ∀ p ∈
    ([(.sha3, 0x20, 2, 1), (.address, 0x30, 0, 1), (.balance, 0x31, 1, 1), (.origin, 0x32, 0, 1),
     (.caller, 0x33, 0, 1), (.callvalue, 0x34, 0, 1), (.calldataload, 0x35, 1, 1), (.calldatasize, 0x36, 0, 1),
     (.calldatacopy, 0x37, 3, 0), (.codesize, 0x38, 0, 1), (.codecopy, 0x39, 3, 0), (.gasprice, 0x3a, 0, 1),
     (.extcodesize, 0x3b, 1, 1), (.extcodecopy, 0x3c, 4, 0), (.returndatasize, 0x3d, 0, 1),
     (.returndatacopy, 0x3e, 3, 0), (.extcodehash, 0x3f, 1, 1), (.blockhash, 0x40, 1, 1),
     (.coinbase, 0x41, 0, 1), (.timestamp, 0x42, 0, 1), (.number, 0x43, 0, 1), (.difficulty, 0x44, 0, 1),
     (.gaslimit, 0x45, 0, 1), (.sload, 0x54, 1, 1), (.sstore, 0x55, 2, 0), (.gas, 0x5a, 0, 1),
     (.log0, 0xa0, 2, 0), (.log1, 0xa1, 3, 0), (.log2, 0xa2, 4, 0), (.log3, 0xa3, 5, 0), (.log4, 0xa4, 6, 0),
     (.create, 0xf0, 3, 1), (.call, 0xf1, 7, 1), (.callcode, 0xf2, 7, 1), (.delegatecall, 0xf4, 6, 1),
     (.create2, 0xf5, 4, 1), (.staticcall, 0xfa, 6, 1), (.selfdestruct, 0xff, 1, 0)] :
      List (Instr × Byte × Nat × Nat)), seven.Ready p.2.1 p.2.2.1 p.2.2.2 := by decide

/-- A handoff of SLOAD with a full stack of two words and the host's next action. -/
def waiting (code : List Byte) (act : List HostAction) : State :=
  { atStart code [5, 6] with ext := true, stackLimit := 2, host := { HostSide.atReset with actions := act } }

theorem witness_HostCompletesTheHandoff :
    let written : List Host.Cell := [(0xfffff, 0xab), (0, 1)]
    let s := waiting [0x54] [.complete [9] [(0xffff0, 16), (0x200000, 0)] written]
    s.host.reset = none ∧ s.host.request = none ∧ s.halt = .running ∧ s.ext = true ∧
      lookupByValue (s.codeRead s.pc) = some infoSload ∧ infoSload.unitClass = .ext ∧ s.codeRead s.pc ≠ 0xff ∧
      infoSload.pops ≤ s.stack.length ∧ ([9] : List Word).length = infoSload.pushes ∧ s.stack.length - infoSload.pops + infoSload.pushes ≤ s.stackLimit ∧
      (∀ r ∈ ([(0xffff0, 16), (0x200000, 0)] : List (Nat × Nat)), r.2 = 0 ∨ r.1 + r.2 ≤ s.memLimit) ∧
      (∀ c ∈ written, c.1 < s.memLimit) ∧ s.mem.wf = true ∧ s.memLimit % 32 = 0 ∧ s.msize % 32 = 0 ∧ s.msize ≤ s.memLimit ∧
      s.host.actions = [.complete [9] [(0xffff0, 16), (0x200000, 0)] written] := by decide
theorem witness_HostHaltsTheHandoff :
    (let s := waiting [0x54] []
     s.host.reset = none ∧ s.host.request = none ∧ s.halt = .running ∧ s.ext = true ∧ s.host.actions = []) ∧
    (let s := waiting [0x54] [.halt (.exception .callDepthExceeded)]
     s.halt = .running ∧ s.ext = true ∧ lookupByValue (s.codeRead s.pc) = some infoSload ∧ infoSload.unitClass = .ext ∧
       s.host.actions = [.halt (.exception .callDepthExceeded)]) ∧
    (let s := waiting [0xff] [.halt .normal]
     lookupByValue (s.codeRead s.pc) = some infoSelfdestruct ∧ s.codeRead s.pc = 0xff ∧ s.host.actions = [.halt .normal]) ∧
    (let s := waiting [0x54] [.halt .normal]
     lookupByValue (s.codeRead s.pc) = some infoSload ∧ s.codeRead s.pc ≠ 0xff ∧ s.host.actions = [.halt .normal]) ∧
    (waiting [0x54] [.halt .revert]).host.actions = [.halt .revert] ∧
    (waiting [0x54] [.halt .running]).host.actions = [.halt .running] ∧
    (let s := waiting [0xff] [.complete [] [] []]
     s.codeRead s.pc = 0xff ∧ s.host.actions = [.complete [] [] []] ∧ s.ext = true) := by decide
theorem witness_UnassignedByteRaisesInvalidInstruction : ∀ v ∈ ([0x0c, 0x0f, 0x1e, 0x1f, 0x21, 0x2f, 0x46, 0x4f, 0x5c, 0x5f,
      0xa5, 0xef, 0xf6, 0xf9, 0xfb, 0xfc, 0xfe] : List Byte),
    (atStart [v] []).Enabled ∧ (atStart [v] []).codeRead (atStart [v] []).pc = v ∧ lookupByValue v = none := by decide
theorem witness_InactiveOpcodeRaisesIllegalOperation :
    Instr.info .add = some infoAdd ∧ (BitVec.allOnes 256 ^^^ 2 : BitVec 256).getLsbD (Instr.opcode .add).toNat = false := by decide
theorem witness_ExceptionPriorityOfTheChecks :
    Instr.info .dup1 = some infoDup1 ∧
    ((atStart [] []).cfg.active.getLsbD (Instr.opcode .dup1).toNat = true ∧ (atStart [] []).stack.length < infoDup1.pops) ∧
    (let s : State := { atStart [] [1] with stackLimit := 1 }
     infoDup1.pops ≤ s.stack.length ∧ s.stackLimit < s.stack.length - infoDup1.pops + infoDup1.pushes) ∧
    (let s : State := { atStart [] [1] with stackLimit := 2, host := { HostSide.atReset with meter := some 0 } }
     infoDup1.pops ≤ s.stack.length ∧ s.stack.length - infoDup1.pops + infoDup1.pushes ≤ s.stackLimit ∧
       s.host.meter = some 0) := by decide
theorem witness_ExceptionsArePrecise :
    let s := atStart [0x01] [1]
    s.Enabled ∧ step s = .next (nextOr s (step s)) ∧ (nextOr s (step s)).halt = .exception .stackUnderflow := by
  refine ⟨by decide, rfl, rfl⟩
theorem witness_EnabledStepAlwaysHasANextState : State.reset.Enabled := by decide
theorem witness_StepEffectOnTheTrace :
    (let s := atStart [0x01] [1]
     s.Enabled ∧ step s = .next (nextOr s (step s)) ∧ (nextOr s (step s)).halt ≠ .running) ∧
    (let s := atStart [0x30] []
     s.Enabled ∧ step s = .next (nextOr s (step s)) ∧ (nextOr s (step s)).ext = true) ∧
    (let s := atStart [0x01] [1, 2]
     s.Enabled ∧ step s = .next (nextOr s (step s)) ∧ (nextOr s (step s)).stack = [3]) := by
  refine ⟨⟨by decide, rfl, by decide⟩, ⟨by decide, rfl, rfl⟩, ⟨by decide, rfl, by decide⟩⟩
theorem witness_TraceHasNoEffect :
    let s := atStart [0x01] [1, 2]
    s.Enabled ∧ step s = .next (nextOr s (step s)) ∧ (nextOr s (step s)).trace ≠ s.trace := by
  refine ⟨by decide, rfl, by decide⟩
theorem witness_HaltedIsFinal :
    (let s : State := { State.reset with halt := .revert }
     s.halt ≠ .running ∧ s.host.reset = none ∧ s.host.request = none) ∧
    (let s : State := { asking (.select 0xc0) with halt := .normal }
     s.halt ≠ .running ∧ s.host.reset = none ∧ step s = .next (nextOr s (step s))) := by
  refine ⟨by decide, by decide, rfl, rfl⟩
theorem witness_ConfigurationConstantDuringARun :
    State.reset.host.reset = none ∧ step State.reset = .next (nextOr State.reset (step State.reset)) := ⟨rfl, rfl⟩
theorem witness_MsizeNeverDecreases :
    let s := atStart [0x52] [0, 1]
    s.host.reset = none ∧ step s = .next (nextOr s (step s)) ∧ (nextOr s (step s)).msize = 32 := ⟨rfl, rfl, rfl⟩
theorem witness_ResetGivesTheStatedValues :
    (let c : LaunchConfig := { LaunchConfig.atReset with code := List.replicate (2 ^ 32 - 34) 0 }
     let r : ResetRequest := { load := some c, writes := [], meter := none }
     let s : State := { State.reset with host := { HostSide.atReset with reset := some r } }
     s.host.reset = some r ∧ r.writes = [] ∧ c = r.load.getD s.cfg ∧ c.code.length ≤ 2 ^ 32 - 34) ∧
    (let code : List Byte := [0x01, 0x5b]
     let r : ResetRequest :=
       { load := none, writes := code.mapIdx HostWrite.code ++ [.reg 5 2, .reg 6 7, .reg 9 0xff], meter := some 0 }
     let s : State := { State.reset with host := { HostSide.atReset with reset := some r } }
     s.host.reset = some r ∧ code.length ≤ 2 ^ 32 - 34 ∧
       r.writes = code.mapIdx HostWrite.code ++ [.reg 5 code.length, .reg 6 (7 : BitVec 256).toNat, .reg 9 (0xff : Byte).toNat]) :=
  ⟨⟨rfl, rfl, rfl, Nat.le_of_eq List.length_replicate⟩, by decide⟩
theorem witness_InvariantKeptByEveryStep :
    (State.reset.Inv ∧ step State.reset = .next (nextOr State.reset (step State.reset))) ∧
    (let s := waiting [0x54] [.complete [9] [] []]
     s.Inv ∧ s.ext = true ∧ step s = .next (nextOr s (step s))) ∧
    (let s : State := { atStart [0x00] [] with pc := 33, mem := [(31, 1)], msize := 32 }
     s.Inv ∧ step s = .next (nextOr s (step s))) := by
  refine ⟨⟨by decide, rfl⟩, ⟨by decide, rfl, rfl⟩, ⟨by decide, rfl⟩⟩
theorem witness_ProgramCounterNeverWraps : State.reset.Inv ∧ State.Inv { atStart [0x00] [] with pc := 33 } ∧
    (let s := atStart [0x7f] []
     s.Enabled ∧ s.pc + 1 = s.cfg.code.length ∧ s.codeRead s.pc = 0x7f ∧ s.Ready 0x7f 0 1) :=
  ⟨by decide, by decide, by decide⟩
theorem witness_HaltRegisterLayout :
    (waiting [0x54] []).Inv ∧ (waiting [0x54] []).haltRegister.getLsbD 2 = true := by decide
/-- A run that has reverted with one byte of output. -/
def reverted : State := { State.reset with halt := .revert, ret := [1] }

theorem witness_HostRegisterView :
    (State.reset.Inv ∧ State.reset.halt = .running ∧ State.reset.ext = false) ∧
    (reverted.Inv ∧ reverted.halt ≠ .running ∧ reverted.ret.length < 2 ^ 32) ∧
    ((waiting [0x54] []).Inv ∧ (waiting [0x54] []).ext = true) :=
  ⟨by decide, by decide, by decide⟩

/-- The writes that complete SLOAD (one operand, one result) in the state `waiting`. -/
def sloadWrites : List HostWrite :=
  [.reg 2 1, .reg 2 2] ++ ([9] : List Word).mapIdx HostWrite.stack ++
    [.reg 1 1, .event { pc := 0, opcode := 0x54, stack := [9, 6] }, .reg 0 0]

/-- R38, R210: SLOAD completed by writes of SP, `x[0]`, `PC`, the trace and `HALT`. -/
theorem test_host_writes_complete :
    after (step (waiting [0x54] [.writes sloadWrites])) (fun t => (t.stack, t.pc, t.ext, t.halt, t.trace)) =
      some ([9, 6], 1, false, .running, [{ pc := 0, opcode := 0x54, stack := [9, 6] }]) := by decide
/-- R39, R300: `HALT` written with state 3 and kind 8; an illegal combination, and `RETLEN`, are not written. -/
theorem test_host_writes_halt :
    after (step (waiting [0x54] [.writes [.reg 0 0x83]])) (fun t => (t.stack, t.pc, t.ext, t.halt)) =
      some ([5, 6], 0, false, .exception .outOfResource) ∧
    refusal (step (waiting [0x54] [.writes [.reg 0 0x03]])) = some .hostProtocol ∧
    refusal (step (waiting [0x54] [.writes [.reg 4 0, .reg 0 0x83]])) = some .hostProtocol := by decide
/-- R38: STACKLIM is valid at a handoff and not while the block runs; R350: so is the trace. -/
theorem test_host_reads : (waiting [0x54] []).hostRead 7 = some 2 ∧ State.reset.hostRead 7 = none ∧
    (waiting [0x54] []).hostReadTrace = some [] ∧ State.reset.hostReadTrace = none := by decide
theorem witness_HostWritesAtTheHandoff :
    (let s := waiting [0x54] [.writes sloadWrites]
     s.host.reset = none ∧ s.host.request = none ∧ s.halt = .running ∧ s.ext = true ∧ s.mem.wf = true ∧
       lookupByValue (s.codeRead s.pc) = some infoSload ∧ infoSload.unitClass = .ext ∧
       s.host.actions = [.writes sloadWrites] ∧ infoSload.value ≠ 0xff ∧ infoSload.pops ≤ s.stack.length ∧
       ([9] : List Word).length = infoSload.pushes ∧
       s.stack.length - infoSload.pops + infoSload.pushes ≤ s.stackLimit ∧ s.msize % 32 = 0 ∧ s.msize ≤ s.memLimit ∧
       s.pc + 1 < 2 ^ 32 ∧
       sloadWrites = [.reg 2 (s.stack.length - infoSload.pops), .reg 2 (s.stack.length - infoSload.pops + infoSload.pushes)] ++
         ([9] : List Word).mapIdx HostWrite.stack ++
         [.reg 1 (s.pc + 1), .event { pc := s.pc, opcode := infoSload.value, stack := [9] ++ s.stack.drop infoSload.pops },
           .reg 0 0]) ∧
    (let s := waiting [0xff] [.writes [.reg 0 1]]
     lookupByValue (s.codeRead s.pc) = some infoSelfdestruct ∧ infoSelfdestruct.unitClass = .ext ∧
       infoSelfdestruct.value = 0xff ∧ s.host.actions = [.writes [.reg 0 1]]) ∧
    (waiting [0x54] [.writes [.reg 0 0x93]]).host.actions = [.writes [.reg 0 0x93]] ∧
    (∃ n v, 4 ≤ n ∧ HostWrite.reg n v ∈ ([.reg 4 0] : List HostWrite)) :=
  ⟨by decide, by decide, rfl, 4, 0, Nat.le_refl 4, List.mem_cons_self⟩
theorem witness_StepRunsTheDecodedInstruction :
    let s := atStart [0x61, 0xab] []
    s.Enabled ∧ decode (s.codeFrom s.pc) = .instr (.push2 0xab00) ∧ Instr.wf (.push2 0xab00) = true := by decide
theorem witness_DecodeEncodeRoundTrip :
    (Instr.wf (.push32 (BitVec.allOnes 256)) = true ∧ (Instr.info (.push32 (BitVec.allOnes 256))).isSome = true) ∧
    (Instr.wf .neg = true ∧ Instr.info .neg = none) := by decide
theorem witness_EncodeDecodeGivesTheBytes : decode [0x61, 0xab] = .instr (.push2 0xab00) ∧ 2 < Instr.length (.push2 0xab00) := by decide
theorem witness_InstructionTableProperties :
    (lookupByValue 0xf1 = some infoCall ∧ isCall infoCall = true) ∧
    (lookupByValue 0xfa = some infoStaticcall ∧ isCall infoStaticcall = true) ∧
    (lookupByValue 0x01 = some infoAdd ∧ isCall infoAdd = false) := by decide

end Sys2Proof.Tests
end

section
/-!
The program counter (00_scope.md R8): what each kind of step does to `pc` and to the code, and the bound that follows.
-/

namespace Sys2Proof.Machine

/-- The bound of R8, with the room it leaves below 2^32: the code is within its legal length. -/
def State.PcBounded (s : State) : Prop :=
  s.pc ≤ s.cfg.code.length + 32 ∧ s.cfg.code.length ≤ 2 ^ 32 - 34

theorem State.Inv.pcBounded {s : State} (h : s.Inv) : s.PcBounded := by
  obtain ⟨⟨-, -, -, -, hcode⟩, -, hpc, -⟩ := h
  exact ⟨hpc, hcode⟩

theorem State.PcBounded.le {s : State} (h : s.PcBounded) : s.pc ≤ s.cfg.code.length + 32 := h.1

theorem State.PcBounded.lt {s : State} (h : s.PcBounded) : s.pc < 2 ^ 32 := by
  obtain ⟨hpc, hcode⟩ := h
  omega

/-- At or past the end of the code the sequencer runs STOP, which leaves `pc` in place (R174). -/
theorem sequencerStep_pc_past_end {s t : State} (hend : s.cfg.code.length ≤ s.pc) (h : sequencerStep s = .next t) :
    t.pc = s.pc ∧ t.cfg = s.cfg := by
  rw [sequencerStep_past_end hend] at h
  rcases exec_stop_cases s with ⟨k, hx⟩ | hx <;> (rw [hx] at h; cases h; exact ⟨rfl, rfl⟩)

/-- Inside the code a sequencer step leaves `pc` in place, moves it over the instruction and its immediate of at most 32
bytes, or goes to a jump destination; so `pc` ends at most 32 past the end of the code. -/
theorem sequencerStep_pc_inside {s t : State} (hin : s.pc < s.cfg.code.length) (h : sequencerStep s = .next t) :
    t.pc ≤ s.cfg.code.length + 32 ∧ t.cfg = s.cfg := by
  rcases sequencerStep_next h with ⟨k, rfl⟩ | ⟨e, -, -, -, rfl⟩ | ⟨e, f, u, good, -, -, himm, -, hu, rfl⟩
  case inl => exact ⟨by simp only [State.raise_pc]; omega, rfl⟩
  case inr.inl => exact ⟨by dsimp only; omega, rfl⟩
  case inr.inr =>
    obtain ⟨-, hcfg, -⟩ := good.frame s u hu
    refine ⟨?_, hcfg⟩
    rw [State.retire_pc]
    rcases good.pc s u hu with stays | advances | jumps <;> omega

/-- Whichever path of R210 the host takes, the code stays, and `pc` stays or goes to the next byte. -/
theorem hostAct_pc {s t : State} {e : OpInfo} {act : HostAction} (h : s.hostAct e act = some t) :
    t.pc ≤ s.pc + 1 ∧ t.cfg = s.cfg := by
  rcases hostAct_cases h with ⟨o, -, -, rfl⟩ | ⟨p, w, c, -, -, rfl⟩ | ⟨ws, -, hws⟩
  · exact ⟨Nat.le_succ _, rfl⟩
  · exact ⟨Nat.le_refl _, rfl⟩
  · obtain ⟨d, words, -, -, ht, completes | halts⟩ := hostWrites_cases hws
    · obtain ⟨-, -, -, -, -, -, -, -, -, hpc, -⟩ := completesAs_spec.mp completes
      exact ⟨hpc.le, by rw [ht, State.ofDraft_cfg]⟩
    · obtain ⟨-, ht'⟩ := haltsAs_spec.mp halts
      rw [ht']
      exact ⟨Nat.le_succ _, rfl⟩

/-- R8: every step keeps the bound of the program counter, whoever acts. -/
theorem State.PcBounded.of_step {s t : State} (hs : s.PcBounded) (h : step s = .next t) : t.PcBounded := by
  obtain ⟨hpc, hcode⟩ := hs
  rcases step_cases h with ⟨r, cfg, -, hr, rfl⟩ | ⟨-, ans, rfl⟩ | ⟨-, hseq⟩ | ⟨-, -, -, act, later, e, -, he, hact⟩
  · have hrange : cfg.code.length ≤ Config.maxCodeLen := of_decide_eq_true (ResetRequest.config_inRange hr)
    exact ⟨Nat.zero_le _, hrange⟩
  · exact ⟨hpc, hcode⟩
  · rcases Nat.lt_or_ge s.pc s.cfg.code.length with hin | hend
    · obtain ⟨hpc', hcfg⟩ := sequencerStep_pc_inside hin hseq
      exact ⟨by rwa [hcfg], by rwa [hcfg]⟩
    · obtain ⟨hpc', hcfg⟩ := sequencerStep_pc_past_end hend hseq
      exact ⟨by rwa [hpc', hcfg], by rwa [hcfg]⟩
  · obtain ⟨hpc', hcfg⟩ := hostAct_pc hact
    have hin := handedOff_lt he
    exact ⟨by rw [hcfg]; dsimp only at hpc' ⊢; omega, by rwa [hcfg]⟩

/-- The opcode byte 0x7f decodes to PUSH32 of the 32 bytes after it (R76, R176). -/
theorem decode_push32 {bytes : List Byte} (h : bytes.headD 0 = 0x7f) :
    decode bytes = .instr (.push32 (packBytes (takePadded 32 bytes.tail))) := by
  have hrow : findRow 0x7f = some ⟨infoPush32, .push32⟩ := rfl
  simp only [decode, h, hrow]
  rfl

/-- A ready PUSH32 pushes its immediate and moves `pc` over its 33 bytes (R176). -/
theorem step_push32 {s : State} (hen : s.Enabled) (hop : s.codeRead s.pc = 0x7f) (hready : s.Ready 0x7f 0 1) :
    step s = .next (s.done 0x7f (packBytes (takePadded 32 (s.codeFrom s.pc).tail) :: s.stack) (s.pc + 1 + 32)) := by
  have hdec := decode_push32 (by rw [headD_codeFrom, hop])
  have hchecks : s.checks infoPush32 = none := checks_of_ready rfl rfl rfl rfl hready
  rw [step_of_enabled hen, sequencerStep, hdec]
  exact issue_ok (effect := pushEffect 32 _) hchecks rfl

/-- Settles O51: the bound of `pc` is part of the invariant and is kept by each kind of step; PUSH32 at the last byte of the
code attains it. -/
theorem programCounterNeverWraps : Obligations.ProgramCounterNeverWraps := by
  refine ⟨fun s hinv => ?_, fun s hen hlast hop hready => ?_⟩
  · have hs : s.PcBounded := hinv.pcBounded
    refine ⟨⟨hs.le, hs.lt⟩, fun t hstep => ?_⟩
    have ht : t.PcBounded := hs.of_step hstep
    exact ⟨ht.le, ht.lt⟩
  · refine ⟨_, step_push32 hen hop hready, ?_⟩
    rw [State.done_pc]
    omega

end Sys2Proof.Machine
end

section
/-!
The sequencer never gets stuck (44_seq_stack_control.md R170, 10_state.md R20): whatever the opcode byte, an outcome of the
sequencer is a next state, and `ext` is raised only while the block runs.
-/

namespace Sys2Proof.Machine

/-- The meaning of an opcode gives a next state: it raises, hands off, or completes. -/
theorem exec_isNext {i : Instr} {e : OpInfo} (hi : i.info = some e) (s : State) : ∃ t, exec i s = .next t := by
  rcases exec_cases hi s with ⟨k, raises⟩ | ⟨-, -, handsOff⟩ | ⟨f, u, -, -, -, completes⟩
  · exact ⟨_, raises⟩
  · exact ⟨_, handsOff⟩
  · exact ⟨_, completes⟩

/-- A sequencer step gives a next state, at an assigned opcode byte and at an unassigned one. -/
theorem sequencerStep_isNext (s : State) : ∃ t, sequencerStep s = .next t := by
  rcases sequencerStep_cases s with ⟨-, raises⟩ | ⟨i, e, -, hi, -, -, -, runs⟩
  · exact ⟨_, raises⟩
  · rw [runs]
    exact exec_isNext hi s

/-- A sequencer step leaves `ext` as it was, unless it hands off, which leaves `halt` as it was (R210). -/
theorem sequencerStep_halt_or_ext {s t : State} (h : sequencerStep s = .next t) : t.halt = s.halt ∨ t.ext = s.ext := by
  rcases sequencerStep_next h with ⟨k, rfl⟩ | ⟨e, -, -, -, rfl⟩ | ⟨e, f, u, good, -, -, -, -, hu, rfl⟩
  · exact .inr rfl
  · exact .inl rfl
  · obtain ⟨hext, -⟩ := good.frame s u hu
    exact .inr hext

/-- Settles O42: an enabled step is a step of the sequencer, which starts with `halt = Running` and `ext = 0` and changes at
most one of the two. -/
theorem enabledStepAlwaysHasANextState : Obligations.EnabledStepAlwaysHasANextState := by
  intro s hen
  obtain ⟨t, hseq⟩ := sequencerStep_isNext s
  refine ⟨t, by rw [step_of_enabled hen, hseq], ?_⟩
  obtain ⟨-, -, hrun, hext⟩ := hen
  rw [← hrun, ← hext]
  exact sequencerStep_halt_or_ext hseq

end Sys2Proof.Machine
end

section
/-!
The invariant of the machine (10_state.md R24 to R31, R39; 00_scope.md R8): its parts, what a step of each kind does to them,
and that every step keeps it. The part about `pc` is `State.PcBounded`, which `State.PcBounded.of_step` keeps.
-/

namespace Sys2Proof.Machine

/-- The memory part of the invariant (R24, R28): canonical, nothing listed at or past `msize`, `msize` a multiple of 32
within `MEM_LIMIT`. -/
def State.MemBounded (s : State) : Prop :=
  s.mem.wf = true ∧ (∀ c ∈ s.mem, c.1 < s.msize) ∧ s.msize % 32 = 0 ∧ s.msize ≤ s.memLimit

/-- What the hardwired limits satisfy (R7, R38). -/
def State.LimitsInRange (s : State) : Prop :=
  1 ≤ s.stackLimit ∧ s.stackLimit < 2 ^ 16 ∧ s.memLimit % 32 = 0 ∧ s.memLimit < 2 ^ 32

/-- The handoff part of the invariant (R31, R39): `ext = 1` only while running, at an opcode of class EXT with its operands. -/
def State.HandoffLegal (s : State) : Prop :=
  s.ext = true → s.halt = .running ∧ ∃ e, s.handedOff = some e ∧ e.pops ≤ s.stack.length

/-- The output part of the invariant (R30, R183, R184): `RET` is empty, or RETURN or REVERT ended the run with it. -/
def State.OutputLegal (s : State) : Prop :=
  s.ret = [] ∨ (s.halt = .normal ∨ s.halt = .revert) ∧ s.ret.length ≤ s.memLimit

/-- The invariant is the conjunction of its parts. -/
theorem inv_iff {s : State} : s.Inv ↔
    s.LimitsInRange ∧ s.PcBounded ∧ s.stack.length ≤ s.stackLimit ∧ s.MemBounded ∧ s.HandoffLegal ∧ s.OutputLegal := by
  have hwaits : (s.handedOff.any fun e => decide (e.pops ≤ s.sp)) = true ↔
      ∃ e, s.handedOff = some e ∧ e.pops ≤ s.stack.length := by
    simp only [Option.any_eq_true, decide_eq_true_eq]
    rfl
  have hret : s.OutputLegal ↔ (s.ret ≠ [] → s.halt = .normal ∨ s.halt = .revert) ∧ s.ret.length ≤ s.memLimit := by
    unfold State.OutputLegal
    by_cases hnil : s.ret = [] <;> simp [hnil]
  unfold State.Inv State.ConfigInv State.LimitsInRange State.PcBounded State.MemBounded State.HandoffLegal
  rw [hret, hwaits]
  tauto

/-- While the block runs, the output buffer is empty (R30). -/
theorem State.OutputLegal.ret_eq_nil {s : State} (h : s.OutputLegal) (hrun : s.halt = .running) : s.ret = [] := by
  rcases h with hnil | ⟨hended, -⟩
  · exact hnil
  · rw [hrun] at hended
    simp at hended

/-- What a step other than a reset must show of the state it leaves, beyond the bound of `pc`: the limits stay, and each
other part of the invariant holds. -/
structure KeepsInv (s t : State) : Prop where
  limits : t.stackLimit = s.stackLimit ∧ t.memLimit = s.memLimit
  stack : t.stack.length ≤ s.stackLimit
  memory : t.MemBounded
  handoff : t.HandoffLegal
  output : t.OutputLegal

theorem KeepsInv.inv {s t : State} (h : KeepsInv s t) (hs : s.LimitsInRange) (hpc : t.PcBounded) : t.Inv := by
  obtain ⟨hstackLimit, hmemLimit⟩ := h.limits
  refine inv_iff.mpr ⟨?_, hpc, by rw [hstackLimit]; exact h.stack, h.memory, h.handoff, h.output⟩
  unfold State.LimitsInRange at hs ⊢
  rwa [hstackLimit, hmemLimit]

/-- A state that is not handed off meets the handoff part. -/
theorem State.HandoffLegal.of_ext_false {t : State} (h : t.ext = false) : t.HandoffLegal :=
  fun hx => absurd hx (by simp [h])

/-- Reset meets the invariant with any configuration in its legal range (R340, R342). -/
theorem reset_inv {s : State} {cfg : LaunchConfig} {host : HostSide} (hs : s.LimitsInRange)
    (hpc : State.PcBounded { s.afterReset with cfg := cfg, host := host }) :
    State.Inv { s.afterReset with cfg := cfg, host := host } := by
  have hmem : State.MemBounded { s.afterReset with cfg := cfg, host := host } := ⟨rfl, by simp, rfl, Nat.zero_le _⟩
  exact inv_iff.mpr ⟨hs, hpc, Nat.zero_le _, hmem, .of_ext_false rfl, .inl rfl⟩

/-- An answer of the ALU port changes nothing the invariant speaks of (R114). -/
theorem answerPort_inv {s : State} (hs : s.Inv) (ans : PortAnswer) : (s.answerPort ans).Inv := hs

/-- A sequencer step keeps the invariant: it raises, hands off with the operands on the stack, or completes with an effect of
the properties of `GoodEffect`. -/
theorem sequencerStep_keepsInv {s t : State} (hs : s.Inv) (hrun : s.halt = .running) (hext : s.ext = false)
    (h : sequencerStep s = .next t) : KeepsInv s t := by
  obtain ⟨⟨-, -, hlim, -⟩, -, hstack, hmem, -, hout⟩ := inv_iff.mp hs
  have hret : s.ret = [] := hout.ret_eq_nil hrun
  rcases sequencerStep_next h with ⟨k, rfl⟩ | ⟨e, hclass, hlook, hchecks, rfl⟩ | ⟨e, f, u, good, -, -, -, hchecks, hu, rfl⟩
  case inl => exact ⟨⟨rfl, rfl⟩, hstack, hmem, .of_ext_false hext, .inl hret⟩
  case inr.inl =>
    obtain ⟨-, hpops, -⟩ := checks_none hchecks
    exact ⟨⟨rfl, rfl⟩, hstack, hmem, fun _ => ⟨hrun, e, handedOff_iff.mpr ⟨hlook, hclass⟩, hpops⟩, .inl hret⟩
  case inr.inr =>
    obtain ⟨-, hpops, hroom, -⟩ := checks_none hchecks
    obtain ⟨huext, -, hstackLimit, hmemLimit, -⟩ := good.frame s u hu
    obtain ⟨hwf, hlisted, hmod, hle⟩ := hmem
    obtain ⟨hwf', hlisted', hmod', hle'⟩ := good.memory s u hu hwf hlisted hlim hmod hle
    refine ⟨⟨hstackLimit, hmemLimit⟩, ?_, ⟨hwf', hlisted', hmod', ?_⟩, .of_ext_false (huext.trans hext), ?_⟩
    · rw [State.retire_stack, good.stack s u hu hpops]
      exact hroom
    · rw [State.retire_msize, State.retire_memLimit, hmemLimit]
      exact hle'
    · rcases good.ret s u hu with stays | ⟨ended, hlen⟩
      · exact .inl (stays.trans hret)
      · exact .inr ⟨ended, by rw [State.retire_memLimit, hmemLimit]; exact hlen⟩

/-- The host completes the instruction by words and bytes (R210 path 1). -/
theorem hostComplete_keepsInv {s : State} {e : OpInfo} {pushed : List Word} {touched : List (Nat × Nat)}
    {written : List Host.Cell} (hs : s.Inv) (hrun : s.halt = .running)
    (h : s.mayComplete e pushed (hostRanges touched written) = true) :
    KeepsInv s (s.hostComplete e pushed touched written) := by
  obtain ⟨⟨-, -, hlim, -⟩, -, -, ⟨hwf, hlisted, hmod, hle⟩, -, hout⟩ := inv_iff.mp hs
  obtain ⟨-, hpops, hlen, hroom, hranges⟩ := mayComplete_spec.mp h
  obtain ⟨hmod', hgrows, hle', hcovers⟩ := touchAll_spec hlim hmod hle hranges
  refine ⟨⟨rfl, rfl⟩, ?_, ⟨writeCells_wf hwf written, ?_, hmod', hle'⟩, .of_ext_false rfl, .inl (hout.ret_eq_nil hrun)⟩
  · rw [State.hostComplete_stack, List.length_append, List.length_drop]
    omega
  · refine writeCells_below (fun c hc => Nat.lt_of_lt_of_le (hlisted c hc) hgrows) fun c hc => ?_
    have hrange : (c.1, 1) ∈ hostRanges touched written := List.mem_append_right _ (List.mem_map_of_mem hc)
    exact hcovers _ hrange Nat.one_ne_zero

/-- The host halts the run (R210 path 2): only `halt` and `ext` are written. -/
theorem hostHalt_keepsInv {s : State} (hs : s.Inv) (hrun : s.halt = .running) (outcome : Halt) :
    KeepsInv s { s with halt := outcome, ext := false } := by
  obtain ⟨-, -, hstack, hmem, -, hout⟩ := inv_iff.mp hs
  exact ⟨⟨rfl, rfl⟩, hstack, hmem, .of_ext_false rfl, .inl (hout.ret_eq_nil hrun)⟩

/-- The host acts by writes at its port (R38), which leave what one of the two paths of R210 leaves. -/
theorem hostWrites_keepsInv {s t : State} {e : OpInfo} {ws : List HostWrite} (hs : s.Inv) (hrun : s.halt = .running)
    (h : s.hostWrites e ws = some t) : KeepsInv s t := by
  obtain ⟨d, words, hd, -, ht, completes | halts⟩ := hostWrites_cases h
  · obtain ⟨-, -, -, ⟨hwf, hlisted, -⟩, -, hout⟩ := inv_iff.mp hs
    obtain ⟨-, -, -, hroom, -, hmod, hgrows, hle, hcovers, -, -, hext, -⟩ := completesAs_spec.mp completes
    obtain ⟨hwf', -, hlisted', -⟩ := HostDraft.writeAll_mem hd hwf
    subst ht
    refine ⟨⟨rfl, rfl⟩, hroom, ⟨hwf', fun c hc => ?_, hmod, hle⟩, .of_ext_false hext, .inl (hout.ret_eq_nil hrun)⟩
    rcases hlisted' c hc with before | written
    · exact Nat.lt_of_lt_of_le (hlisted c before) hgrows
    · exact hcovers _ written
  · obtain ⟨-, ht'⟩ := haltsAs_spec.mp halts
    rw [ht']
    exact hostHalt_keepsInv hs hrun _

/-- Whichever action of R210 the host takes, the invariant is kept. -/
theorem hostAct_keepsInv {s t : State} {e : OpInfo} {act : HostAction} (hs : s.Inv) (hrun : s.halt = .running)
    (h : s.hostAct e act = some t) : KeepsInv s t := by
  rcases hostAct_cases h with ⟨o, -, -, rfl⟩ | ⟨p, w, c, -, may, rfl⟩ | ⟨ws, -, hws⟩
  · exact hostHalt_keepsInv hs hrun o
  · exact hostComplete_keepsInv hs hrun may
  · exact hostWrites_keepsInv hs hrun hws

/-- Settles O50, by the four kinds of step: a reset, an answer of the ALU port, a step of the sequencer, an action of the
host. -/
theorem invariantKeptByEveryStep : Obligations.InvariantKeptByEveryStep := by
  intro s t hs hstep
  obtain ⟨hlimits, hpc, -⟩ := inv_iff.mp hs
  have hpc' : t.PcBounded := hpc.of_step hstep
  rcases step_cases hstep with ⟨r, cfg, -, -, rfl⟩ | ⟨-, ans, rfl⟩ | ⟨⟨-, -, hrun, hext⟩, hseq⟩ |
    ⟨-, hrun, -, act, later, e, -, -, hact⟩
  · exact reset_inv hlimits hpc'
  · exact answerPort_inv hs ans
  · exact (sequencerStep_keepsInv hs hrun hext hseq).inv hlimits hpc'
  · have hwaiting : State.Inv { s with host := { s.host with actions := later } } := hs
    exact (hostAct_keepsInv hwaiting hrun hact).inv hlimits hpc'

end Sys2Proof.Machine
end

section
/-!
What the host sees: `JD` (10_state.md R35), the register `HALT` (R39, 60_exceptions.md R300), and the registers, the arrays and
the trace (10_state.md R38, 70_reset_and_hazards.md R350).
-/

namespace Sys2Proof.Machine

/-- Settles O28: `JD` filters the boundaries by their code byte, unless the option keeps them all. -/
theorem jumpDestsAreMarkedBoundaries : Obligations.JumpDestsAreMarkedBoundaries := by
  intro code required t
  rw [jumpDests, List.mem_filter]
  cases required <;> simp

/-- The fields of `HALT` (R39): `kind` from bit 4, `ext` at bit 2, `state` from bit 0, and nothing at bit 3. -/
theorem haltRegister_toNat (s : State) :
    s.haltRegister.toNat = 16 * s.halt.kindField + 4 * s.ext.toNat + s.halt.stateField := by
  unfold State.haltRegister
  rcases s.halt with _ | _ | _ | k
  case exception => cases k <;> cases s.ext <;> rfl
  all_goals cases s.ext <;> rfl

theorem Halt.stateField_lt (h : Halt) : h.stateField < 4 := by
  cases h <;> simp [Halt.stateField]

/-- The field `state` is 0 exactly while running (R39). -/
theorem Halt.stateField_eq_zero_iff {h : Halt} : h.stateField = 0 ↔ h = .running := by
  cases h <;> simp [Halt.stateField]

theorem haltRegister_state (s : State) : s.haltRegister.toNat % 4 = s.halt.stateField := by
  have hfield := s.halt.stateField_lt
  rw [haltRegister_toNat]
  omega

theorem haltRegister_kind (s : State) : s.haltRegister.toNat / 16 = s.halt.kindField := by
  have hfield := s.halt.stateField_lt
  have hext : s.ext.toNat ≤ 1 := s.ext.toNat_le
  rw [haltRegister_toNat]
  omega

theorem haltRegister_ext (s : State) : s.haltRegister.getLsbD 2 = s.ext := by
  simp only [State.haltRegister, BitVec.getLsbD_append]
  simp

theorem haltRegister_reserved (s : State) : s.haltRegister.getLsbD 3 = false := by
  simp only [State.haltRegister, BitVec.getLsbD_append]
  simp

/-- A state that did not end in an exception has no kind (R39). -/
theorem Halt.kindField_of_not_exception {h : Halt} (hno : ∀ k, h ≠ .exception k) : h.kindField = 0 := by
  cases h with
  | exception k => exact absurd rfl (hno k)
  | _ => rfl

/-- Settles O52, field by field; the invariant allows `ext = 1` only while running. -/
theorem haltRegisterLayout : Obligations.HaltRegisterLayout := by
  refine ⟨fun s => ⟨?_, haltRegister_ext s, haltRegister_reserved s, fun k hk => ?_, fun hno => ?_⟩, fun s hs hbit => ?_, rfl⟩
  · rw [haltRegister_state]
    cases s.halt <;> rfl
  · rw [haltRegister_kind, hk]
    cases k <;> rfl
  · rw [haltRegister_kind, Halt.kindField_of_not_exception hno]
  · obtain ⟨-, -, -, -, hlegal, -⟩ := inv_iff.mp hs
    obtain ⟨hrun, -⟩ := hlegal ((haltRegister_ext s).symm.trans hbit)
    rw [haltRegister_state, Halt.stateField_eq_zero_iff.mpr hrun]

/-- The host may read what has access `RO` exactly when the run has ended or the block is handed off (R23, R38). -/
theorem hostMayRead_iff {s : State} : s.hostMayRead = true ↔ s.halt ≠ .running ∨ s.ext = true := by
  simp [State.hostMayRead]

/-- A register that the host may read, with a value within its width, is read as it is. -/
theorem hostRead_eq_some {s : State} {n v w : Nat} (hmay : hostRegGated n = false ∨ s.hostMayRead = true)
    (hreg : s.hostReg n = some v) (hwidth : hostRegWidth n = some w) (hfits : v < 2 ^ w) : s.hostRead n = some v := by
  have hopen : ¬ (hostRegGated n && !s.hostMayRead) = true := by
    rcases hmay with h | h <;> simp [h]
  rw [State.hostRead, if_neg hopen, hreg, hwidth]
  exact congrArg some (Nat.mod_eq_of_lt hfits)

/-- A register of access `RO` is not read while the block runs. -/
theorem hostRead_eq_none_of_gated {s : State} {n : Nat} (hgated : n < 5 ∨ n = 7 ∨ n = 8) (hmay : s.hostMayRead = false) :
    s.hostRead n = none := by
  have hclosed : (hostRegGated n && !s.hostMayRead) = true := by
    simpa [hostRegGated, hmay, or_assoc] using hgated
  rw [State.hostRead, if_pos hclosed]

/-- There is no register from number 10 on (R38). -/
theorem hostRead_eq_none_of_le {s : State} {n : Nat} (hn : 10 ≤ n) : s.hostRead n = none := by
  have hreg : s.hostReg n = none := List.getElem?_eq_none hn
  simp [State.hostRead, hreg]

/-- The register `OPTS` (R38): bit 0 is `fault`, bit 1 is `JUMPDEST_REQUIRED`. -/
theorem opts_toNat (c : LaunchConfig) :
    c.opts.toNat = (if c.jumpdestRequired then 2 else 0) + (if c.signextendOor = .fault then 1 else 0) := by
  unfold LaunchConfig.opts
  cases c.jumpdestRequired <;> cases c.signextendOor <;> rfl

/-- Under the invariant `RET` is no longer than the memory. -/
theorem State.OutputLegal.length_le {s : State} (h : s.OutputLegal) : s.ret.length ≤ s.memLimit := by
  rcases h with hnil | ⟨-, hle⟩
  · rw [hnil]
    exact Nat.zero_le _
  · exact hle

/-- What the host reads while the block runs and is not handed off: nothing of access `RO`. -/
theorem host_reads_nothing_of_running {s : State} (hmay : s.hostMayRead = false) :
    (∀ n, n < 5 ∨ n = 7 ∨ n = 8 → s.hostRead n = none) ∧ (∀ i, s.hostReadStack i = none) ∧ (∀ a, s.hostReadMem a = none) ∧
      (∀ i, s.hostReadRet i = none) ∧ s.hostReadTrace = none :=
  ⟨fun _ hn => hostRead_eq_none_of_gated hn hmay, by simp [State.hostReadStack, hmay], by simp [State.hostReadMem, hmay],
    by simp [State.hostReadRet, hmay], by simp [State.hostReadTrace, hmay]⟩

/-- Under the invariant the host, when it may read the state, reads each register of access `RO` uncut. -/
theorem hostRead_gated_of_inv {s : State} (hs : s.Inv) (hmay : s.hostMayRead = true) :
    s.hostRead 0 = some s.haltRegister.toNat ∧ s.hostRead 1 = some s.pc ∧ s.hostRead 2 = some s.stack.length ∧
      s.hostRead 3 = some s.msize ∧ s.hostRead 4 = some s.ret.length ∧ s.hostRead 7 = some s.stackLimit ∧
      s.hostRead 8 = some s.memLimit := by
  obtain ⟨⟨-, hstackLimit, -, hmemLimit⟩, hpc, hstack, ⟨-, -, -, hmsize⟩, -, hout⟩ := inv_iff.mp hs
  have hret := hout.length_le
  exact ⟨hostRead_eq_some (.inr hmay) rfl rfl s.haltRegister.isLt, hostRead_eq_some (.inr hmay) rfl rfl hpc.lt,
    hostRead_eq_some (.inr hmay) rfl rfl (Nat.lt_of_le_of_lt hstack hstackLimit),
    hostRead_eq_some (.inr hmay) rfl rfl (Nat.lt_of_le_of_lt hmsize hmemLimit),
    hostRead_eq_some (.inr hmay) rfl rfl (Nat.lt_of_le_of_lt hret hmemLimit),
    hostRead_eq_some (.inr hmay) rfl rfl hstackLimit, hostRead_eq_some (.inr hmay) rfl rfl hmemLimit⟩

/-- What the host reads of the arrays and the trace when it may read the state. -/
theorem host_reads_arrays {s : State} (hmay : s.hostMayRead = true) :
    (∀ i, s.hostReadStack i = s.stack[i]?) ∧
      (∀ a, s.hostReadMem a = if a < s.memLimit then some (s.mem.read a) else none) ∧
      (∀ i, s.hostReadRet i = s.ret[i]?) ∧ s.hostReadTrace = some s.trace :=
  ⟨by simp [State.hostReadStack, State.peek, hmay], by simp [State.hostReadMem, hmay],
    by simp [State.hostReadRet, hmay], by simp [State.hostReadTrace, hmay]⟩

/-- Settles O53: the registers of access `RO` are gated by `hostMayRead`, those of access `CFG` are not, and the invariant bounds
each value by the width of its register. -/
theorem hostRegisterView : Obligations.HostRegisterView := by
  intro s hs
  obtain ⟨-, ⟨-, hcode⟩, -⟩ := inv_iff.mp hs
  refine ⟨fun hrun hext => ?_, fun hreadable => ?_, ?_, ?_, ?_, fun _ => rfl, fun n hn => hostRead_eq_none_of_le hn⟩
  · exact host_reads_nothing_of_running (by simp [State.hostMayRead, hrun, hext])
  · have hmay := hostMayRead_iff.mpr hreadable
    obtain ⟨h0, h1, h2, h3, h4, h7, h8⟩ := hostRead_gated_of_inv hs hmay
    exact ⟨h0, h1, h2, h3, h4, h7, h8, host_reads_arrays hmay⟩
  · exact hostRead_eq_some (.inl rfl) rfl rfl (Nat.lt_of_le_of_lt hcode (by norm_num))
  · exact hostRead_eq_some (.inl rfl) rfl rfl s.cfg.active.isLt
  · rw [← opts_toNat]
    exact hostRead_eq_some (.inl rfl) rfl rfl s.cfg.opts.isLt

end Sys2Proof.Machine
end

section
/-!
The host's writes by number at a handoff (10_state.md R38, R39; 46_external_opcodes.md R210, R245): what each write does to the
draft, and the outcome of an action made of writes.
-/

namespace Sys2Proof.Machine

section
variable {s : State} {d : HostDraft}

/-- A write of `HALT` with a legal byte (R39). -/
theorem HostDraft.write_halt (hext : d.ext = true) {v : Nat} (hv : v < 2 ^ 8) {h : Halt} {x : Bool}
    (hreg : Halt.ofRegister (BitVec.ofNat 8 v) = some (h, x)) :
    d.write s (.reg 0 v) = some { d with halt := h, ext := x } := by
  simp only [HostDraft.write, hext, Bool.true_eq_false, if_false, HostDraft.writeReg, if_pos hv, hreg, Option.map_some]

/-- A write of `PC`. -/
theorem HostDraft.write_pc (hext : d.ext = true) {v : Nat} (hv : v < 2 ^ 32) :
    d.write s (.reg 1 v) = some { d with pc := v } := by
  simp only [HostDraft.write, hext, Bool.true_eq_false, if_false, HostDraft.writeReg, if_pos hv]

/-- A write of `SP` within the limit. -/
theorem HostDraft.write_sp (hext : d.ext = true) {v : Nat} (hv : v ≤ s.stackLimit) :
    d.write s (.reg 2 v) = some { d with stack := resizeStack d.stack v } := by
  simp [HostDraft.write, HostDraft.writeReg, hext, hv]

/-- A write of an entry of the stack that is there. -/
theorem HostDraft.write_stack (hext : d.ext = true) {i : Nat} (x : Word) (hi : i < d.stack.length) :
    d.write s (.stack i x) = some { d with stack := d.stack.set i (some x) } := by
  simp [HostDraft.write, hext, hi]

/-- The trace event is appended. -/
theorem HostDraft.write_event (hext : d.ext = true) (ev : TraceEvent) :
    d.write s (.event ev) = some { d with trace := d.trace ++ [ev] } := by
  simp [HostDraft.write, hext]

/-- No write of a register from number 4 on is allowed at a handoff (R38). -/
theorem HostDraft.write_reg_eq_none {n v : Nat} (hn : 4 ≤ n) : d.write s (.reg n v) = none := by
  obtain ⟨m, rfl⟩ : ∃ m, n = m + 4 := ⟨n - 4, by omega⟩
  simp [HostDraft.write, HostDraft.writeReg]

/-- The code is not writable at a handoff (R350). -/
theorem HostDraft.write_code_eq_none (i : Nat) (b : Byte) : d.write s (.code i b) = none := by
  simp [HostDraft.write]

/-- A list of writes whose first is carried out. -/
theorem HostDraft.writeAll_cons {w : HostWrite} {ws : List HostWrite} {d₁ : HostDraft} (h : d.write s w = some d₁) :
    d.writeAll s (w :: ws) = d₁.writeAll s ws := by
  simp [HostDraft.writeAll, h]

end

/-- Lowering `SP` removes entries at the top (R26). -/
theorem resizeStack_shrink {stack : List (Option Word)} {n : Nat} (h : n ≤ stack.length) :
    resizeStack stack n = stack.drop (stack.length - n) := by
  simp [resizeStack, Nat.sub_eq_zero_of_le h]

/-- Raising `SP` makes entries at the top that hold no word yet (log 23). -/
theorem resizeStack_grow (stack : List (Option Word)) (n : Nat) :
    resizeStack stack (stack.length + n) = List.replicate n none ++ stack := by
  simp [resizeStack]

/-- Lowering `SP` by the operands and raising it by the results, of a draft whose stack is the block's, leaves the entries below
the operands and room for the results. -/
theorem HostDraft.writeAll_sp_pops_pushes {s : State} {e : OpInfo} (hext : s.ext = true) (hpops : e.pops ≤ s.stack.length)
    (hroom : s.stack.length - e.pops + e.pushes ≤ s.stackLimit) :
    s.draft.writeAll s [.reg 2 (s.stack.length - e.pops), .reg 2 (s.stack.length - e.pops + e.pushes)] =
      some { s.draft with stack := List.replicate e.pushes none ++ (s.stack.drop e.pops).map some } := by
  have hshrink : resizeStack s.draft.stack (s.stack.length - e.pops) = (s.stack.drop e.pops).map some := by
    rw [resizeStack_shrink (by simp [State.draft])]
    simp [State.draft, Nat.sub_sub_self hpops]
  have hgrow := resizeStack_grow ((s.stack.drop e.pops).map some) e.pushes
  rw [List.length_map, List.length_drop] at hgrow
  rw [HostDraft.writeAll_cons (HostDraft.write_sp hext (by omega)), hshrink,
    HostDraft.writeAll_cons (HostDraft.write_sp hext hroom), hgrow]
  rfl

/-- Writing `x[n], x[n+1], …` in their order, `n` the number of entries before them, replaces as many entries. -/
theorem HostDraft.writeAll_stack {s : State} {d : HostDraft} (hext : d.ext = true) {before replaced after : List (Option Word)}
    {words : List Word} (hlen : words.length = replaced.length) (hstack : d.stack = before ++ (replaced ++ after)) :
    d.writeAll s (words.mapIdx fun i w => .stack (before.length + i) w) =
      some { d with stack := before ++ (words.map some ++ after) } := by
  induction words generalizing d before replaced with
  | nil =>
    obtain rfl : replaced = [] := List.eq_nil_of_length_eq_zero hlen.symm
    cases d
    subst hstack
    rfl
  | cons w words ih =>
    obtain ⟨old, rest, rfl⟩ : ∃ old rest, replaced = old :: rest := List.exists_cons_of_length_eq_add_one hlen.symm
    have hfirst : d.write s (.stack (before.length + 0) w) =
        some { d with stack := (before ++ [some w]) ++ (rest ++ after) } := by
      rw [Nat.add_zero, HostDraft.write_stack hext w (by simp [hstack]), hstack]
      simp
    have hrest := ih (d := { d with stack := (before ++ [some w]) ++ (rest ++ after) }) hext (before := before ++ [some w])
      (Nat.succ.inj hlen) rfl
    rw [List.mapIdx_cons, HostDraft.writeAll_cons hfirst]
    simpa [Nat.add_assoc, Nat.add_comm 1] using hrest

/-- The state on which the host's next action is carried out: that action is taken from the queue (log 7). -/
def State.actionTaken (s : State) (later : List HostAction) : State := { s with host := { s.host with actions := later } }

/-- At a handoff the step is the host's next action on the record of the opcode at `pc` (R210). -/
theorem step_of_action {s : State} {e : OpInfo} {act : HostAction} {later : List HostAction} (hreset : s.host.reset = none)
    (hreq : s.host.request = none) (hrun : s.halt = .running) (hext : s.ext = true) (he : s.handedOff = some e)
    (hact : s.host.actions = act :: later) :
    step s = ((s.actionTaken later).hostAct e act).elim (.refused .hostProtocol) .next := by
  have hhost : step s = hostStep s := by simp only [step, hreset, hreq, blockStep, hrun, hext, if_true]
  simp only [hhost, hostStep, hact, he, State.actionTaken]
  cases State.hostAct { s with host := { s.host with actions := later } } e act <;> rfl

/-- The normal halt is open to SELFDESTRUCT only, an exception to every opcode (R210 path 2, R245). -/
theorem mayHalt_iff {e : OpInfo} {h : Halt} :
    mayHalt e h = true ↔ (∃ k, h = .exception k) ∨ (e.value = 0xff ∧ h = .normal) := by
  have hself : infoSelfdestruct.value = 0xff := rfl
  cases h <;> simp [mayHalt, hself]

/-- Writing `HALT` alone, to an outcome that R210 path 2 allows, halts so. -/
theorem hostWrites_halt {s : State} {e : OpInfo} (hext : s.ext = true) {v : Nat} (hv : v < 2 ^ 8) {outcome : Halt}
    (hreg : Halt.ofRegister (BitVec.ofNat 8 v) = some (outcome, false)) (hmay : mayHalt e outcome = true) :
    s.hostWrites e [.reg 0 v] = some { s with halt := outcome, ext := false } := by
  have hdraft : s.draft.writeAll s [.reg 0 v] = some { s.draft with halt := outcome, ext := false } :=
    HostDraft.writeAll_cons (HostDraft.write_halt hext hv hreg)
  exact hostWrites_of hdraft (allThere_map_some s.stack) (.inr (haltsAs_spec.mpr ⟨hmay, rfl⟩))

/-- The writes by which the host completes an instruction without touching memory: the operands go, `pushed` comes in, then
`PC`, the trace event, and `HALT = 0`. -/
def completionWrites (s : State) (e : OpInfo) (pushed : List Word) : List HostWrite :=
  [.reg 2 (s.stack.length - e.pops), .reg 2 (s.stack.length - e.pops + e.pushes)] ++ pushed.mapIdx HostWrite.stack ++
    [.reg 1 (s.pc + 1), .event { pc := s.pc, opcode := e.value, stack := pushed ++ s.stack.drop e.pops }, .reg 0 0]

/-- What those writes make of the draft. -/
theorem writeAll_completionWrites {s : State} {e : OpInfo} {pushed : List Word} (hrun : s.halt = .running)
    (hext : s.ext = true) (hpops : e.pops ≤ s.stack.length) (hlen : pushed.length = e.pushes)
    (hroom : s.stack.length - e.pops + e.pushes ≤ s.stackLimit) (hpc : s.pc + 1 < 2 ^ 32) :
    s.draft.writeAll s (completionWrites s e pushed) = some { s.draft with
      ext := false
      pc := s.pc + 1
      stack := (pushed ++ s.stack.drop e.pops).map some
      trace := s.trace ++ [{ pc := s.pc, opcode := e.value, stack := pushed ++ s.stack.drop e.pops }] } := by
  have hpush := HostDraft.writeAll_stack (s := s) (before := []) (replaced := List.replicate e.pushes none)
    (d := { s.draft with stack := List.replicate e.pushes none ++ (s.stack.drop e.pops).map some }) hext
    (hlen.trans List.length_replicate.symm) rfl
  simp only [List.length_nil, Nat.zero_add, List.nil_append] at hpush
  have hhalt : Halt.ofRegister (BitVec.ofNat 8 0) = some (s.halt, false) := by rw [hrun]; rfl
  rw [completionWrites, List.append_assoc, HostDraft.writeAll_append (HostDraft.writeAll_sp_pops_pushes hext hpops hroom),
    HostDraft.writeAll_append hpush, HostDraft.writeAll_cons (HostDraft.write_pc hext hpc),
    HostDraft.writeAll_cons (HostDraft.write_event hext _),
    HostDraft.writeAll_cons (HostDraft.write_halt hext (by decide) hhalt), List.map_append]
  rfl

/-- Those writes complete the instruction, as R210 path 1 says. -/
theorem hostWrites_completionWrites {s : State} {e : OpInfo} {pushed : List Word} (hrun : s.halt = .running)
    (hext : s.ext = true) (hcomp : e.value ≠ infoSelfdestruct.value) (hpops : e.pops ≤ s.stack.length)
    (hlen : pushed.length = e.pushes) (hroom : s.stack.length - e.pops + e.pushes ≤ s.stackLimit)
    (hmod : s.msize % 32 = 0) (hle : s.msize ≤ s.memLimit) (hpc : s.pc + 1 < 2 ^ 32) :
    s.hostWrites e (completionWrites s e pushed) = some { s with
      stack := pushed ++ s.stack.drop e.pops
      pc := s.pc + 1
      ext := false
      trace := s.trace ++ [{ pc := s.pc, opcode := e.value, stack := pushed ++ s.stack.drop e.pops }] } := by
  have hcount : (pushed ++ s.stack.drop e.pops).length = s.stack.length - e.pops + e.pushes := by
    rw [List.length_append, List.length_drop, hlen, Nat.add_comm]
  have hkept : (pushed ++ s.stack.drop e.pops).drop e.pushes = s.stack.drop e.pops := by
    rw [← hlen, List.drop_left]
  have hdraft := writeAll_completionWrites hrun hext hpops hlen hroom hpc
  refine hostWrites_of hdraft (allThere_map_some _) (.inl (completesAs_spec.mpr ?_))
  exact ⟨hcomp, hpops, hcount, hcount.le.trans hroom, hkept, hmod, Nat.le_refl _, hle, by simp [State.draft], rfl, hrun, rfl,
    rfl⟩

/-- An action with a write that the port never allows at a handoff is not carried out. -/
theorem hostWrites_eq_none {s : State} {e : OpInfo} {ws : List HostWrite} {w : HostWrite} (hw : w ∈ ws)
    (hnever : ∀ d : HostDraft, d.write s w = none) : s.hostWrites e ws = none := by
  by_contra hsome
  obtain ⟨t, ht⟩ := Option.ne_none_iff_exists'.mp hsome
  obtain ⟨d, words, hd, -⟩ := hostWrites_cases ht
  obtain ⟨d₁, d₂, hallowed⟩ := HostDraft.writeAll_each hd hw
  rw [hnever d₁] at hallowed
  cases hallowed

/-- A byte of memory that the writes of an action change stands at an offset that one of them names. -/
theorem writeAll_mem_read {s : State} {d : HostDraft} {ws : List HostWrite} (hwf : s.mem.wf = true)
    (hd : s.draft.writeAll s ws = some d) (a : Nat) :
    d.mem.read a = s.mem.read a ∨ (a ∈ d.written ∧ ∃ b, .mem a b ∈ ws) := by
  obtain ⟨-, -, -, hsame⟩ := HostDraft.writeAll_mem hd hwf
  by_cases ha : a ∈ d.written
  · rcases HostDraft.writeAll_written hd ha with before | named
    · cases before
    · exact .inr ⟨ha, named⟩
  · exact .inl (hsame a ha)

/-- What path 1 of R210 writes is the stack, the memory, `msize`, `pc`, `ext` and the trace; the rest of the state stays. -/
theorem completesAs_frame {s : State} {e : OpInfo} {d : HostDraft} {words : List Word} (hrun : s.halt = .running)
    (h : s.completesAs e d.written (s.ofDraft d words) = true) :
    s.ofDraft d words = { s with
      stack := words
      mem := d.mem
      msize := d.msize
      pc := s.pc + 1
      ext := false
      trace := s.trace ++ [{ pc := s.pc, opcode := e.value, stack := words }] } := by
  obtain ⟨-, -, -, -, -, -, -, -, -, hpc, hhalt, hext, htrace⟩ := completesAs_spec.mp h
  simp only [State.ofDraft_pc, State.ofDraft_halt, State.ofDraft_ext, State.ofDraft_trace,
    State.ofDraft_stack] at hpc hhalt hext htrace
  rw [State.ofDraft, hpc, hhalt, hext, htrace, hrun]

/-- What an action made of writes leaves: an exception, the normal halt of SELFDESTRUCT, or, at any other opcode, the
completion with the counts of its record, `msize` grown within its bounds, and memory changed only where a write says. -/
theorem hostWrites_outcome {s t : State} {e : OpInfo} {ws : List HostWrite} (hrun : s.halt = .running) (hwf : s.mem.wf = true)
    (h : s.hostWrites e ws = some t) :
    (∃ k, t = { s with halt := .exception k, ext := false }) ∨
    (e.value = 0xff ∧ t = { s with halt := .normal, ext := false }) ∨
    (e.value ≠ 0xff ∧ e.pops ≤ s.stack.length ∧ t.stack.length = s.stack.length - e.pops + e.pushes ∧
      t.stack.length ≤ s.stackLimit ∧ t.stack.drop e.pushes = s.stack.drop e.pops ∧
      t.msize % 32 = 0 ∧ s.msize ≤ t.msize ∧ t.msize ≤ s.memLimit ∧
      (∀ a, t.mem.read a = s.mem.read a ∨ (a < t.msize ∧ ∃ b, .mem a b ∈ ws)) ∧
      t = { s with
        stack := t.stack
        mem := t.mem
        msize := t.msize
        pc := s.pc + 1
        ext := false
        trace := s.trace ++ [{ pc := s.pc, opcode := e.value, stack := t.stack }] }) := by
  obtain ⟨d, words, hd, -, rfl, completes | halts⟩ := hostWrites_cases h
  · obtain ⟨hcomp, hpops, hlen, hroom, hkept, hmod, hgrows, hle, hcovers, -⟩ := completesAs_spec.mp completes
    refine .inr (.inr ⟨hcomp, hpops, hlen, hroom, hkept, hmod, hgrows, hle, fun a => ?_, completesAs_frame hrun completes⟩)
    exact (writeAll_mem_read hwf hd a).imp_right fun ⟨hwritten, hnamed⟩ => ⟨hcovers a hwritten, hnamed⟩
  · obtain ⟨hmay, hframe⟩ := haltsAs_spec.mp halts
    rcases mayHalt_iff.mp hmay with ⟨k, hk⟩ | ⟨hself, hnormal⟩
    · exact .inl ⟨k, by rw [← hk]; exact hframe⟩
    · exact .inr (.inl ⟨hself, by rw [← hnormal]; exact hframe⟩)

/-- Settles O60. The waiting action is `writes ws`, so the step is the outcome of `hostWrites` on the state with that action
taken from the queue: what it can be, the two ways to halt, the way to complete, and the writes that are refused. -/
theorem hostWritesAtTheHandoff : Obligations.HostWritesAtTheHandoff := by
  intro s e ws later hreset hreq hrun hext hwf hlook hclass hactions
  have hstep : step s = ((s.actionTaken later).hostWrites e ws).elim (.refused .hostProtocol) .next :=
    step_of_action hreset hreq hrun hext (handedOff_iff.mpr ⟨hlook, hclass⟩) hactions
  have hrun' : (s.actionTaken later).halt = .running := hrun
  have hext' : (s.actionTaken later).ext = true := hext
  rw [hstep]
  refine ⟨fun t ht => ?_, fun k hws => ?_, fun hself hws => ?_,
    fun pushed hcomp hpops hlen hroom hmod hle hpc hws => ?_, fun hforbidden => ?_⟩
  · cases hout : (s.actionTaken later).hostWrites e ws with
    | none => rw [hout] at ht; cases ht
    | some u =>
      rw [hout] at ht
      cases ht
      exact hostWrites_outcome hrun' hwf hout
  · have hbyte : ∃ v < 2 ^ 8, ws = [.reg 0 v] ∧ Halt.ofRegister (BitVec.ofNat 8 v) = some (.exception k, false) :=
      ⟨_, by cases k <;> decide, hws, by cases k <;> rfl⟩
    obtain ⟨v, hv, rfl, hreg⟩ := hbyte
    rw [hostWrites_halt hext' hv hreg (mayHalt_iff.mpr (.inl ⟨k, rfl⟩))]
    rfl
  · rw [hws, hostWrites_halt hext' (by decide) rfl (mayHalt_iff.mpr (.inr ⟨hself, rfl⟩))]
    rfl
  · have hcompletion : ws = completionWrites (s.actionTaken later) e pushed := hws
    rw [hcompletion, hostWrites_completionWrites hrun' hext' hcomp hpops hlen hroom hmod hle hpc]
    rfl
  · have hnone : (s.actionTaken later).hostWrites e ws = none := by
      rcases hforbidden with ⟨n, v, hn, hmem⟩ | ⟨i, b, hmem⟩
      · exact hostWrites_eq_none hmem fun _ => HostDraft.write_reg_eq_none hn
      · exact hostWrites_eq_none hmem fun _ => HostDraft.write_code_eq_none i b
    rw [hnone]
    rfl

end Sys2Proof.Machine
end

section
/-!
One list for each memory (20_memory.md section 3, R58): in the canonical form the entries are determined by what is read.
-/

namespace Sys2Proof.Machine

/-- The canonical form of a nonempty memory, by its first entry. -/
theorem Memory.wfFrom_cons {low c : Nat} {x : Byte} {rest : Memory} :
    Memory.wfFrom low ((c, x) :: rest) = true ↔ low ≤ c ∧ x ≠ Memory.unlisted ∧ Memory.wfFrom (c + 1) rest = true := by
  simp only [Memory.wfFrom, Bool.and_eq_true, decide_eq_true_eq, and_assoc]

@[simp] theorem Memory.read_cons_self (c : Nat) (x : Byte) (rest : Memory) :
    Memory.read ((c, x) :: rest) c = x := if_pos rfl

theorem Memory.read_cons_of_ne {c a : Nat} (h : c ≠ a) (x : Byte) (rest : Memory) :
    Memory.read ((c, x) :: rest) a = rest.read a := if_neg h

/-- An offset that does not read as an unlisted one is at or past the first entry. -/
theorem Memory.head_le_of_read_ne {low c a : Nat} {x : Byte} {rest : Memory}
    (h : Memory.wfFrom low ((c, x) :: rest) = true) (ha : Memory.read ((c, x) :: rest) a ≠ Memory.unlisted) : c ≤ a := by
  obtain ⟨-, hx, hrest⟩ := Memory.wfFrom_cons.mp h
  have hfrom : Memory.wfFrom c ((c, x) :: rest) = true := Memory.wfFrom_cons.mpr ⟨Nat.le_refl c, hx, hrest⟩
  by_contra hlt
  exact ha (Memory.read_below hfrom (Nat.lt_of_not_le hlt))

/-- A canonical memory that reads as unlisted everywhere has no entry. -/
theorem Memory.eq_nil_of_read {low : Nat} {m : Memory} (h : Memory.wfFrom low m = true)
    (hread : ∀ a, m.read a = Memory.unlisted) : m = [] := by
  cases m with
  | nil => rfl
  | cons p rest =>
    obtain ⟨c, x⟩ := p
    obtain ⟨-, hx, -⟩ := Memory.wfFrom_cons.mp h
    exact absurd (hread c) (by rwa [Memory.read_cons_self])

/-- Canonical memories that read alike and start with an entry at the same offset read alike past that entry, too. -/
theorem Memory.read_tail_eq {c : Nat} {x y : Byte} {m n : Memory} (hm : Memory.wfFrom (c + 1) m = true)
    (hn : Memory.wfFrom (c + 1) n = true) (hread : ∀ a, Memory.read ((c, x) :: m) a = Memory.read ((c, y) :: n) a) (a : Nat) :
    m.read a = n.read a := by
  rcases Nat.lt_or_ge c a with past | upTo
  · have hne : c ≠ a := Nat.ne_of_lt past
    simpa only [Memory.read_cons_of_ne hne] using hread a
  · have hbelow : a < c + 1 := Nat.lt_succ_of_le upTo
    rw [Memory.read_below hm hbelow, Memory.read_below hn hbelow]

/-- Canonical memories that read alike are the same list: their first entries stand at the least offset that does not read
as unlisted, hold the byte read there, and the rest follows by induction. -/
theorem Memory.eq_of_read_from {low : Nat} {m n : Memory} (hm : Memory.wfFrom low m = true) (hn : Memory.wfFrom low n = true)
    (hread : ∀ a, m.read a = n.read a) : m = n := by
  induction m generalizing low n with
  | nil => exact (Memory.eq_nil_of_read hn fun a => (hread a).symm).symm
  | cons p m ih =>
    obtain ⟨c, x⟩ := p
    cases n with
    | nil => exact Memory.eq_nil_of_read hm hread
    | cons q n =>
      obtain ⟨d, y⟩ := q
      obtain ⟨-, hx, hm'⟩ := Memory.wfFrom_cons.mp hm
      obtain ⟨-, hy, hn'⟩ := Memory.wfFrom_cons.mp hn
      have hdc : d ≤ c := Memory.head_le_of_read_ne hn (by rwa [← hread, Memory.read_cons_self])
      have hcd : c ≤ d := Memory.head_le_of_read_ne hm (by rwa [hread, Memory.read_cons_self])
      obtain rfl : c = d := Nat.le_antisymm hcd hdc
      have hbyte : x = y := by simpa using hread c
      rw [hbyte, ih hm' hn' (Memory.read_tail_eq hm' hn' hread)]

/-- Settles O34: the laws of a write are those of `Memory.write`; the canonical form is one for each memory by
`Memory.eq_of_read_from`. -/
theorem memoryReadAfterWrite : Obligations.MemoryReadAfterWrite :=
  ⟨fun _ a b hm => ⟨Memory.write_wf hm a b, Memory.read_write hm a b⟩, fun _ _ hm hn => Memory.eq_of_read_from hm hn⟩

end Sys2Proof.Machine
end

section
/-!
The configuration during a run (20_memory.md R67): no step but a reset writes the code, the mask, the options or the limits.
-/

namespace Sys2Proof.Machine

/-- Two states of one run: they have the same configuration and the same hardwired limits. -/
structure SameConfig (s t : State) : Prop where
  cfg : t.cfg = s.cfg
  stackLimit : t.stackLimit = s.stackLimit
  memLimit : t.memLimit = s.memLimit

/-- An answer of the ALU port leaves the configuration (R114). -/
theorem answerPort_sameConfig (s : State) (ans : PortAnswer) : SameConfig s (s.answerPort ans) := ⟨rfl, rfl, rfl⟩

/-- A sequencer step leaves the configuration: no effect of an instruction writes it (R67). -/
theorem sequencerStep_sameConfig {s t : State} (h : sequencerStep s = .next t) : SameConfig s t := by
  rcases sequencerStep_next h with ⟨k, rfl⟩ | ⟨e, -, -, -, rfl⟩ | ⟨e, f, u, good, -, -, -, -, hu, rfl⟩
  case inl => exact ⟨rfl, rfl, rfl⟩
  case inr.inl => exact ⟨rfl, rfl, rfl⟩
  case inr.inr =>
    obtain ⟨-, hcfg, hstackLimit, hmemLimit, -⟩ := good.frame s u hu
    exact ⟨hcfg, hstackLimit, hmemLimit⟩

/-- What the host makes of the state at a handoff has no part of the configuration (R38, R350). -/
theorem ofDraft_sameConfig (s : State) (d : HostDraft) (words : List Word) : SameConfig s (s.ofDraft d words) :=
  ⟨rfl, rfl, rfl⟩

/-- Whichever path of R210 the host takes, and by whichever form of action, the configuration stays. -/
theorem hostAct_sameConfig {s t : State} {e : OpInfo} {act : HostAction} (h : s.hostAct e act = some t) :
    SameConfig s t := by
  rcases hostAct_cases h with ⟨o, -, -, rfl⟩ | ⟨p, w, c, -, -, rfl⟩ | ⟨ws, -, hws⟩
  · exact ⟨rfl, rfl, rfl⟩
  · exact ⟨rfl, rfl, rfl⟩
  · obtain ⟨d, words, -, -, rfl, -⟩ := hostWrites_cases hws
    exact ofDraft_sameConfig s d words

/-- Without a reset a step leaves the configuration, whether the port, the sequencer or the host at a handoff acts. -/
theorem step_sameConfig {s t : State} (hreset : s.host.reset = none) (h : step s = .next t) : SameConfig s t := by
  rcases step_cases h with ⟨r, cfg, hr, -⟩ | ⟨-, ans, rfl⟩ | ⟨-, hseq⟩ | ⟨-, -, -, act, later, e, -, -, hact⟩
  · rw [hreset] at hr
    cases hr
  · exact answerPort_sameConfig s ans
  · exact sequencerStep_sameConfig hseq
  · obtain ⟨hcfg, hstackLimit, hmemLimit⟩ := hostAct_sameConfig hact
    exact ⟨hcfg, hstackLimit, hmemLimit⟩

/-- Settles O46, by the kinds of step other than a reset. -/
theorem configurationConstantDuringARun : Obligations.ConfigurationConstantDuringARun := by
  intro s t hreset hstep
  obtain ⟨hcfg, hstackLimit, hmemLimit⟩ := step_sameConfig hreset hstep
  exact ⟨hcfg, hstackLimit, hmemLimit⟩

end Sys2Proof.Machine
end

section
/-!
The decoder and the encoder are inverse to each other (30_encoding.md R70 to R73, R79, R82): the row of an opcode builds the
instruction back from its immediate, and the immediate's bytes are those the fetch took.
-/

namespace Sys2Proof.Machine

/-- The lookup by an instruction's opcode finds the row that builds the instruction from its immediate (R76). -/
theorem findRow_opcode {i : Instr} {e : OpInfo} (hi : i.info = some e) :
    ∃ r, findRow i.opcode = some r ∧ r.build i.imm = i := by
  cases i
  case neg | isneg | rol | ror => cases hi
  all_goals exact ⟨_, rfl, rfl⟩

/-- The instructions without a record are the four functions of the ALU port (R82). -/
theorem info_eq_none_iff {i : Instr} : i.info = none ↔ i = .neg ∨ i = .isneg ∨ i = .rol ∨ i = .ror := by
  constructor
  · intro hi
    cases i
    case neg | isneg | rol | ror => simp
    all_goals cases hi
  · rintro (rfl | rfl | rfl | rfl) <;> rfl

/-- Well-formedness in the base of the bytes (R73). -/
theorem wf_iff {i : Instr} : i.wf = true ↔ i.imm.toNat < 256 ^ i.immLen := by
  rw [Instr.wf, decide_eq_true_iff, pow_mul, show (2 : Nat) ^ 8 = 256 from rfl]

/-- The decoder at an opcode byte whose row is known. -/
theorem decode_cons {v : Byte} {r : OpRow} (hv : findRow v = some r) (bytes : List Byte) :
    decode (v :: bytes) = .instr (r.build (packBytes (takePadded r.info.imm bytes))) := by
  simp only [decode, List.headD_cons, List.tail_cons, hv]

theorem encode_length (i : Instr) : (encode i).length = 1 + i.immLen := by
  rw [encode, List.length_cons, wordBytesBE_length, Nat.add_comm]

/-- The fetch of an encoded immediate, whatever bytes follow it, gives the immediate back (R72, R73). -/
theorem packBytes_takePadded_immediate {i : Instr} (hwf : i.wf = true) (hle : i.immLen ≤ 32) (rest : List Byte) :
    packBytes (takePadded i.immLen (wordBytesBE i.immLen i.imm ++ rest)) = i.imm := by
  have htake := takePadded_append (wordBytesBE i.immLen i.imm) rest
  rw [wordBytesBE_length] at htake
  rw [htake, packBytes_wordBytesBE hle (wf_iff.mp hwf)]

/-- Decoding an opcode's encoding gives the instruction back, whatever bytes follow. -/
theorem decode_encode {i : Instr} {e : OpInfo} (hi : i.info = some e) (hwf : i.wf = true) (rest : List Byte) :
    decode (encode i ++ rest) = .instr i := by
  obtain ⟨r, hrow, hbuild⟩ := findRow_opcode hi
  obtain ⟨-, -, hlen, hle, -⟩ := opcodeMap_agree r (findRow_some hrow).1 i.imm
  rw [hbuild] at hlen
  rw [encode, List.cons_append, decode_cons hrow, ← hlen, packBytes_takePadded_immediate hwf (hlen.trans_le hle), hbuild]

/-- A function of the ALU port is encoded as its select, which the select decoder reads (R82). -/
theorem decodeSelect_opcode {i : Instr} (hi : i.info = none) : encode i = [i.opcode] ∧ decodeSelect i.opcode = some i := by
  rcases info_eq_none_iff.mp hi with rfl | rfl | rfl | rfl <;> exact ⟨rfl, rfl⟩

/-- Settles O56: `decode_encode` for the opcodes, `decodeSelect_opcode` for the functions of the port. -/
theorem decodeEncodeRoundTrip : Obligations.DecodeEncodeRoundTrip := by
  intro i hwf
  refine ⟨fun hi rest => ?_, decodeSelect_opcode, encode_length i⟩
  obtain ⟨e, he⟩ := Option.isSome_iff_exists.mp hi
  exact decode_encode he hwf rest

/-- The first bytes of a list, one more of them: the byte the decoder looks up, and those after it. -/
theorem takePadded_succ (n : Nat) (bytes : List Byte) :
    takePadded (n + 1) bytes = bytes.headD 0 :: takePadded n bytes.tail := by
  cases bytes <;> rfl

/-- An instruction that a row builds from as many bytes as its immediate has is well formed (R73). -/
theorem build_wf {r : OpRow} (hr : r ∈ opcodeMap) {d : List Byte} (hd : d.length = r.info.imm) :
    (r.build (packBytes d)).wf = true := by
  obtain ⟨-, -, hlen, hle, himm, hnone, -⟩ := opcodeMap_agree r hr (packBytes d)
  rw [wf_iff, hlen]
  by_cases h0 : r.info.imm = 0
  · rw [hnone h0]
    exact Nat.pow_pos (by decide)
  · rw [himm h0, toNat_packBytes_of_le (hd.trans_le hle), ← hd]
    exact be_lt d

/-- The encoding of an instruction that a row builds from as many bytes as its immediate has: the row's value, then those
bytes. -/
theorem encode_build {r : OpRow} (hr : r ∈ opcodeMap) {d : List Byte} (hd : d.length = r.info.imm) :
    encode (r.build (packBytes d)) = r.info.value :: d := by
  obtain ⟨hop, -, hlen, hle, himm, -⟩ := opcodeMap_agree r hr (packBytes d)
  rw [encode, hop, hlen]
  by_cases h0 : r.info.imm = 0
  · obtain rfl : d = [] := List.eq_nil_of_length_eq_zero (hd.trans h0)
    rw [h0]
    rfl
  · rw [himm h0, ← hd, wordBytesBE_packBytes (hd.trans_le hle)]

/-- A decoded instruction is well formed, and its encoding is the bytes it was decoded from, 0x00 past their end (R52). -/
theorem encode_decode {bytes : List Byte} {i : Instr} (h : decode bytes = .instr i) :
    i.wf = true ∧ encode i = takePadded i.length bytes := by
  obtain ⟨r, hr, hvalue, -, rfl⟩ := decode_instr h
  have hd : (takePadded r.info.imm bytes.tail).length = r.info.imm := takePadded_length _ _
  obtain ⟨-, -, hlen, -⟩ := opcodeMap_agree r hr (packBytes (takePadded r.info.imm bytes.tail))
  refine ⟨build_wf hr hd, ?_⟩
  rw [encode_build hr hd, hvalue, Instr.length, hlen, Nat.add_comm, takePadded_succ]

/-- Settles O57, byte by byte from `encode_decode`. -/
theorem encodeDecodeGivesTheBytes : Obligations.EncodeDecodeGivesTheBytes := by
  intro bytes i h
  obtain ⟨hwf, henc⟩ := encode_decode h
  obtain ⟨e, he, -⟩ := decode_info h
  refine ⟨hwf, Option.isSome_iff_exists.mpr ⟨e, he⟩, fun j hj => ?_⟩
  rw [henc, takePadded_getD i.length bytes j hj]

/-- Settles O55: the whole words are encodings; the cut immediate and the empty list read as those bytes followed by 0x00;
no row has the last two values. -/
theorem decodeReadsTheWrittenWords : Obligations.DecodeReadsTheWrittenWords :=
  ⟨decode_encode (i := .add) rfl rfl [], decode_encode (i := .lt) rfl rfl [], decode_encode (i := .sar) rfl rfl [],
    decode_encode (i := .sha3) rfl rfl [], decode_encode (i := .push2 0x01fe) rfl rfl [], rfl,
    decode_encode (i := .dup16) rfl rfl [], decode_encode (i := .swap1) rfl rfl [], decode_encode (i := .return_) rfl rfl [],
    decode_encode (i := .mload) rfl rfl [], decode_encode (i := .selfdestruct) rfl rfl [], rfl, rfl, rfl⟩

end Sys2Proof.Machine
end

section
/-!
The linear sweep of the code (30_encoding.md R84): the sweep from an offset `a` on is `a` itself and the sweep from where the
instruction at `a` ends, so the boundaries are closed under going to the next instruction, and each but 0 is reached so.
-/

namespace Sys2Proof.Machine

theorem opcodeLength_pos (v : Byte) : 0 < opcodeLength v := by
  unfold opcodeLength
  split <;> omega

/-- The bytes of an instruction already met are passed over. -/
theorem sweep_skip (code : List Byte) (skip a : Nat) : sweep code skip a = sweep (code.drop skip) 0 (a + skip) := by
  induction skip generalizing code a with
  | zero => rfl
  | succ skip ih =>
    cases code with
    | nil => rfl
    | cons v rest => rw [sweep, ih, List.drop_succ_cons, Nat.add_assoc, Nat.add_comm 1]

/-- The offset where the instruction at `a` ends (R84). -/
def nextOffset (code : List Byte) (a : Nat) : Nat := a + opcodeLength (code.getD a 0)

theorem lt_nextOffset (code : List Byte) (a : Nat) : a < nextOffset code a :=
  Nat.lt_add_of_pos_right (opcodeLength_pos _)

/-- The sweep of the code from offset `a` on, when an instruction begins there. -/
def sweepFrom (code : List Byte) (a : Nat) : List Nat := sweep (code.drop a) 0 a

theorem boundaries_eq_sweepFrom (code : List Byte) : boundaries code = sweepFrom code 0 := rfl

/-- Inside the code the sweep meets `a` and goes on at the next instruction. -/
theorem sweepFrom_of_lt {code : List Byte} {a : Nat} (ha : a < code.length) :
    sweepFrom code a = a :: sweepFrom code (nextOffset code a) := by
  obtain ⟨n, hn⟩ : ∃ n, opcodeLength code[a] = n + 1 := Nat.exists_eq_add_one.mpr (opcodeLength_pos _)
  have hnext : nextOffset code a = a + 1 + n := by
    rw [nextOffset, List.getD_eq_getElem _ _ ha, hn, Nat.add_comm n, Nat.add_assoc]
  rw [sweepFrom, List.drop_eq_getElem_cons ha, sweep, sweep_skip, List.drop_drop, hn, Nat.add_sub_cancel, hnext, sweepFrom]

/-- At or past the end of the code the sweep is over. -/
theorem sweepFrom_of_le {code : List Byte} {a : Nat} (ha : code.length ≤ a) : sweepFrom code a = [] := by
  rw [sweepFrom, List.drop_eq_nil_of_le ha, sweep]

/-- The offset the sweep starts at is met, if it is inside the code. -/
theorem mem_sweepFrom_self {code : List Byte} {a : Nat} : a ∈ sweepFrom code a ↔ a < code.length := by
  rcases Nat.lt_or_ge a code.length with inside | past
  · simp [sweepFrom_of_lt inside, inside]
  · simp [sweepFrom_of_le past, past]

/-- What a sweep meets is its first offset, inside the code, or is met by the sweep from the next instruction. -/
theorem mem_sweepFrom {code : List Byte} {a j : Nat} :
    j ∈ sweepFrom code a ↔ a < code.length ∧ (j = a ∨ j ∈ sweepFrom code (nextOffset code a)) := by
  rcases Nat.lt_or_ge a code.length with inside | past
  · simp [sweepFrom_of_lt inside, inside]
  · simp [sweepFrom_of_le past, past]

/-- A sweep meets the end of each instruction it meets, if that is inside the code. -/
theorem nextOffset_mem_sweepFrom {code : List Byte} {a j : Nat} (hj : j ∈ sweepFrom code a)
    (hin : nextOffset code j < code.length) : nextOffset code j ∈ sweepFrom code a := by
  obtain ⟨ha, rfl | later⟩ := mem_sweepFrom.mp hj
  · exact mem_sweepFrom.mpr ⟨ha, .inr (mem_sweepFrom_self.mpr hin)⟩
  · exact mem_sweepFrom.mpr ⟨ha, .inr (nextOffset_mem_sweepFrom later hin)⟩
termination_by code.length - a
decreasing_by
  have hnext := lt_nextOffset code a
  omega

/-- Every offset a sweep meets is its first or the end of one it met before. -/
theorem eq_or_eq_nextOffset_of_mem_sweepFrom {code : List Byte} {a j : Nat} (hj : j ∈ sweepFrom code a) :
    j = a ∨ ∃ k ∈ sweepFrom code a, j = nextOffset code k := by
  obtain ⟨ha, rfl | later⟩ := mem_sweepFrom.mp hj
  · exact .inl rfl
  · rcases eq_or_eq_nextOffset_of_mem_sweepFrom later with rfl | ⟨k, hk, rfl⟩
    · exact .inr ⟨a, mem_sweepFrom_self.mpr ha, rfl⟩
    · exact .inr ⟨k, mem_sweepFrom.mpr ⟨ha, .inr hk⟩, rfl⟩
termination_by code.length - a
decreasing_by
  have hnext := lt_nextOffset code a
  omega

/-- Settles O27: the boundaries are the sweep from offset 0. -/
theorem boundariesAreTheLinearSweep : Obligations.BoundariesAreTheLinearSweep := by
  intro code
  rw [boundaries_eq_sweepFrom]
  refine ⟨fun j hj => ?_, mem_sweepFrom_self.trans List.length_pos_iff, fun j hj => nextOffset_mem_sweepFrom hj,
    fun j hj => eq_or_eq_nextOffset_of_mem_sweepFrom hj, fun v => rfl⟩
  obtain ⟨-, hlt⟩ := sweep_bounds hj
  simpa using hlt

end Sys2Proof.Machine
end

section
/-!
The unassigned byte values (30_encoding.md R77): the values of the six groups of rows of the opcode map are read off the tables,
and what they leave out are the 117 values of R77.
-/

namespace Sys2Proof.Machine

/-- The byte values of rows of the opcode map, as numbers. -/
def rowValues (rows : List OpRow) : List Nat := rows.map fun r => r.info.value.toNat

theorem rowValues_append (rows rows' : List OpRow) : rowValues (rows ++ rows') = rowValues rows ++ rowValues rows' :=
  List.map_append

theorem rowValues_aluRows : rowValues aluRows = List.range' 0x01 11 ++ List.range' 0x10 14 := rfl

theorem rowValues_seqRows : rowValues seqRows =
    [0x00] ++ List.range' 0x50 4 ++ List.range' 0x56 4 ++ [0x5b, 0xf3, 0xfd] := rfl

theorem rowValues_pushRows : rowValues pushRows = List.range' 0x60 32 := rfl

theorem rowValues_dupRows : rowValues dupRows = List.range' 0x80 16 := rfl

theorem rowValues_swapRows : rowValues swapRows = List.range' 0x90 16 := rfl

theorem rowValues_extRows : rowValues extRows =
    [0x20] ++ List.range' 0x30 22 ++ [0x54, 0x55, 0x5a] ++ List.range' 0xa0 5 ++
      [0xf0, 0xf1, 0xf2, 0xf4, 0xf5, 0xfa, 0xff] := rfl

/-- The lookup finds none exactly for a value that no row has. -/
theorem lookupByValue_eq_none_iff {v : Byte} : lookupByValue v = none ↔ v.toNat ∉ rowValues opcodeMap := by
  simp [lookupByValue, findRow, rowValues, BitVec.toNat_inj]

/-- The assigned values, as the ranges of the opcode map (R76). -/
theorem mem_rowValues_opcodeMap {v : Nat} : v ∈ rowValues opcodeMap ↔
    v ≤ 0x0b ∨ (0x10 ≤ v ∧ v ≤ 0x1d) ∨ v = 0x20 ∨ (0x30 ≤ v ∧ v ≤ 0x45) ∨ (0x50 ≤ v ∧ v ≤ 0x5b) ∨
      (0x60 ≤ v ∧ v ≤ 0xa4) ∨ (0xf0 ≤ v ∧ v ≤ 0xf5) ∨ v = 0xfa ∨ v = 0xfd ∨ v = 0xff := by
  simp only [opcodeMap, rowValues_append, rowValues_aluRows, rowValues_seqRows, rowValues_pushRows, rowValues_dupRows,
    rowValues_swapRows, rowValues_extRows, List.mem_append, List.mem_range'_1, List.mem_cons, List.not_mem_nil, or_false]
  omega

/-- At an unassigned byte the sequencer raises `InvalidInstruction` (R304). -/
theorem sequencerStep_unassigned {s : State} (h : lookupByValue (s.codeRead s.pc) = none) :
    sequencerStep s = .next (s.raise .invalidInstruction) := by
  rcases sequencerStep_cases s with ⟨-, raises⟩ | ⟨i, e, -, -, assigned, -⟩
  · exact raises
  · rw [h] at assigned
    cases assigned

/-- Settles O38: the unassigned values are the gaps between the assigned ones, and the step at such a byte raises. -/
theorem unassignedByteRaisesInvalidInstruction : Obligations.UnassignedByteRaisesInvalidInstruction := by
  refine ⟨fun b => ?_, fun s hen hnone => ?_⟩
  · have hbyte : b.toNat < 256 := b.isLt
    rw [lookupByValue_eq_none_iff, mem_rowValues_opcodeMap]
    dsimp only
    omega
  · rw [step_of_enabled hen, sequencerStep_unassigned hnone]
    rfl

end Sys2Proof.Machine
end

section
/-!
The arithmetic functions as the spec states them (40_alu_arithmetic.md R101 to R110): each function of the ALU is the integer
operation narrowed once, and the rule of its instruction follows from that equation.
-/

namespace Sys2Proof.Machine

theorem aluAdd_eq (a b : Word) : aluAdd a b = BitVec.ofNat 256 (a.toNat + b.toNat) := by
  rw [← word_natCast, Nat.cast_add]
  rfl

theorem aluMul_eq (a b : Word) : aluMul a b = BitVec.ofNat 256 (a.toNat * b.toNat) := by
  rw [← word_natCast, Nat.cast_mul]
  rfl

/-- Settles O1: the three functions narrow the integer result; `word` and `uval` say so for SUB as they stand. -/
theorem addMulSubWrapModTwoPow256 : Obligations.AddMulSubWrapModTwoPow256 :=
  ⟨binaryRule_of infoAdd aluAdd rfl (fun _ _ _ => rfl) (fun _ => rfl) rfl rfl rfl rfl aluAdd_eq,
    binaryRule_of infoMul aluMul rfl (fun _ _ _ => rfl) (fun _ => rfl) rfl rfl rfl rfl aluMul_eq,
    binaryRule_of infoSub aluSub rfl (fun _ _ _ => rfl) (fun _ => rfl) rfl rfl rfl rfl fun _ _ => rfl⟩

/-- A function that answers the zero word for the zero word `b` (R104 to R109) tests its unsigned value. -/
theorem zero_or_congr (b : Word) {x y : Word} (h : x = y) : (if b = 0 then 0 else x) = if b.toNat = 0 then 0 else y :=
  if_congr (eq_zero_iff_toNat b) rfl h

theorem aluDiv_eq (a b : Word) : aluDiv a b = if b.toNat = 0 then 0 else BitVec.ofNat 256 (a.toNat / b.toNat) := by
  refine zero_or_congr b ?_
  rw [← word_natCast, Int.natCast_ediv]
  rfl

theorem aluMod_eq (a b : Word) : aluMod a b = if b.toNat = 0 then 0 else BitVec.ofNat 256 (a.toNat % b.toNat) := by
  refine zero_or_congr b ?_
  rw [← word_natCast, Int.natCast_emod]
  rfl

/-- Settles O2, by the equations of the two functions. -/
theorem divModUnsignedZeroDivisorIsZero : Obligations.DivModUnsignedZeroDivisorIsZero :=
  ⟨binaryRule_of infoDiv aluDiv rfl (fun _ _ _ => rfl) (fun _ => rfl) rfl rfl rfl rfl aluDiv_eq,
    binaryRule_of infoMod aluMod rfl (fun _ _ _ => rfl) (fun _ => rfl) rfl rfl rfl rfl aluMod_eq⟩

/-- Division truncated toward zero, by the signs and the absolute values (R105). -/
theorem tdiv_eq_sign_mul (m n : Int) : m.tdiv n = m.sign * n.sign * ((m.natAbs / n.natAbs : Nat) : Int) := by
  rw [← Int.sign_mul_natAbs (m.tdiv n), Int.sign_tdiv, Int.natAbs_tdiv]
  split
  case isTrue hlt =>
    have hquot : m.natAbs / n.natAbs = 0 := Nat.div_eq_of_lt hlt
    rw [hquot, Nat.cast_zero, mul_zero, zero_mul]
  case isFalse => rfl

/-- The overflow case of SDIV gives what narrowing the quotient gives (R105). -/
theorem word_tdiv_min_ones : word ((sval wordMin).tdiv (sval wordOnes)) = wordMin := by decide

theorem aluSdiv_eq (a b : Word) : aluSdiv a b = if b.toNat = 0 then 0 else
    BitVec.ofInt 256 (a.toInt.sign * b.toInt.sign * ((a.toInt.natAbs / b.toInt.natAbs : Nat) : Int)) := by
  refine zero_or_congr b ?_
  rw [← tdiv_eq_sign_mul]
  split
  case isTrue overflow =>
    obtain ⟨rfl, rfl⟩ := overflow
    exact word_tdiv_min_ones.symm
  case isFalse => rfl

theorem aluSmod_eq (a b : Word) : aluSmod a b = if b.toNat = 0 then 0 else
    BitVec.ofInt 256 (a.toInt.sign * ((a.toInt.natAbs % b.toInt.natAbs : Nat) : Int)) :=
  zero_or_congr b rfl

/-- Settles O3, by the equations of the two functions; the overflow case is one evaluation of SDIV. -/
theorem sdivSmodSignedTruncated : Obligations.SdivSmodSignedTruncated := by
  have hmin : aluSdiv wordMin wordOnes = wordMin := by decide
  exact ⟨binaryRule_of infoSdiv aluSdiv rfl (fun _ _ _ => rfl) (fun _ => rfl) rfl rfl rfl rfl aluSdiv_eq,
    binaryRule_of infoSmod aluSmod rfl (fun _ _ _ => rfl) (fun _ => rfl) rfl rfl rfl rfl aluSmod_eq,
    fun _ => congrArg PortAnswer.result hmin⟩

theorem aluAddmod_eq (a b c : Word) :
    aluAddmod a b c = if c.toNat = 0 then 0 else BitVec.ofNat 256 ((a.toNat + b.toNat) % c.toNat) := by
  refine zero_or_congr c ?_
  rw [← word_natCast, Int.natCast_emod, Nat.cast_add]
  rfl

theorem aluMulmod_eq (a b c : Word) :
    aluMulmod a b c = if c.toNat = 0 then 0 else BitVec.ofNat 256 ((a.toNat * b.toNat) % c.toNat) := by
  refine zero_or_congr c ?_
  rw [← word_natCast, Int.natCast_emod, Nat.cast_mul]
  rfl

/-- Settles O4, by the equations of the two functions. -/
theorem addmodMulmodUnboundedIntermediate : Obligations.AddmodMulmodUnboundedIntermediate :=
  ⟨ternaryRule_of infoAddmod aluAddmod rfl (fun _ _ _ => rfl) (fun _ => rfl) rfl rfl rfl rfl aluAddmod_eq,
    ternaryRule_of infoMulmod aluMulmod rfl (fun _ _ _ => rfl) (fun _ => rfl) rfl rfl rfl rfl aluMulmod_eq⟩

/-- Square-and-multiply from the accumulator 1, with a step for each of the 256 bits of the exponent (R110). -/
theorem aluExp_eq (a b : Word) : aluExp a b = BitVec.ofNat 256 (a.toNat ^ b.toNat) := by
  have hpow : powLoop 256 a.toNat b.toNat 1 % 2 ^ 256 = a.toNat ^ b.toNat % 2 ^ 256 := by
    rw [powLoop_mod 256 a.toNat b.toNat 1 b.isLt, one_mul]
  apply BitVec.eq_of_toNat_eq
  rw [aluExp, word_natCast, BitVec.toNat_ofNat, BitVec.toNat_ofNat, hpow]

/-- Settles O5: the refinement is `aluExp_eq`, by the invariant of the loop in `powLoop_mod`. -/
theorem expIsPowerModTwoPow256 : Obligations.ExpIsPowerModTwoPow256 :=
  binaryRule_of infoExp aluExp rfl (fun _ _ _ => rfl) (fun _ => rfl) rfl rfl rfl rfl aluExp_eq

end Sys2Proof.Machine
end

section
/-!
SIGNEXTEND (40_alu_arithmetic.md R111, R112): the bits of the answer, and what the instruction does with an index above 31,
which the port answers with an error.
-/

namespace Sys2Proof.Machine

/-- Every bit above bit `8k+7` is a copy of that bit, the bits up to it are those of the word (R111). -/
theorem getLsbD_signExtendByte {k j : Nat} (b : Word) (hk : k ≤ 31) (hj : j < 256) :
    (signExtendByte k b).getLsbD j = b.getLsbD (min j (8 * k + 7)) := by
  rw [signExtendByte, BitVec.getLsbD_signExtend, decide_eq_true hj, Bool.true_and]
  split
  case isTrue below =>
    rw [BitVec.getLsbD_extractLsb', decide_eq_true below, Bool.true_and, Nat.zero_add, Nat.min_eq_left (by omega)]
  case isFalse above =>
    have hsign : 8 * k + 8 - 1 < 8 * k + 8 := by omega
    rw [BitVec.msb_eq_getLsbD_last, BitVec.getLsbD_extractLsb', decide_eq_true hsign, Bool.true_and, Nat.zero_add,
      Nat.min_eq_right (by omega)]
    rfl

theorem aluSignextend_of_le {a : Word} (b : Word) (ha : a.toNat ≤ 31) :
    aluSignextend a b = .result (signExtendByte a.toNat b) :=
  if_neg (Nat.not_lt.mpr ha)

theorem aluSignextend_of_lt {a : Word} (b : Word) (ha : 31 < a.toNat) : aluSignextend a b = .error .rangeError :=
  if_pos ha

/-- What the port answers to the select of SIGNEXTEND (R82). -/
theorem alu_signextend (a b c : Word) : alu 0x0b a b c = aluSignextend a b := rfl

/-- The meaning of SIGNEXTEND: the checks of a step, then its effect (R112). -/
theorem exec_signextend (s : State) : exec .signextend s = issue infoSignextend signextendEffect s := rfl

theorem checks_signextend {s : State} (hready : s.Ready 0x0b 2 1) : s.checks infoSignextend = none :=
  checks_of_ready rfl rfl rfl rfl hready

/-- The state after a ready SIGNEXTEND that leaves the word `r` in place of its operands. -/
theorem exec_signextend_of_ok {s : State} {r : Word} {rest : List Word} (hready : s.Ready 0x0b 2 1)
    (heffect : signextendEffect s = .ok (s.advance (r :: rest))) :
    exec .signextend s = .next (s.done 0x0b (r :: rest) (s.pc + 1)) := by
  rw [exec_signextend, issue_ok (checks_signextend hready) heffect]
  rfl

section
variable {s : State} {a b : Word} {rest : List Word} (hstack : s.stack = a :: b :: rest)
include hstack

theorem signextendEffect_of_le (ha : a.toNat ≤ 31) :
    signextendEffect s = .ok (s.advance (signExtendByte a.toNat b :: rest)) := by
  simp only [signextendEffect, hstack, aluSignextend_of_le b ha]

theorem signextendEffect_passthrough (ha : 31 < a.toNat) (hopt : s.cfg.signextendOor = .passthrough) :
    signextendEffect s = .ok (s.advance (b :: rest)) := by
  simp only [signextendEffect, hstack, aluSignextend_of_lt b ha, hopt]

theorem signextendEffect_fault (ha : 31 < a.toNat) (hopt : s.cfg.signextendOor = .fault) :
    signextendEffect s = .error .rangeError := by
  simp only [signextendEffect, hstack, aluSignextend_of_lt b ha, hopt]

end

/-- Settles O6: the port by the two ranges of the index, the instruction by those and the option. -/
theorem signextendFunctionAndInstruction : Obligations.SignextendFunctionAndInstruction := by
  refine ⟨rfl, fun a b c ha => ?_, fun a b c ha => ?_, fun s a b rest hstack hready ha => ?_,
    fun s a b rest hstack hready ha hopt => ?_, fun s a b rest hstack hready ha hopt => ?_⟩
  · rw [alu_signextend, aluSignextend_of_lt b ha]
  · exact ⟨_, by rw [alu_signextend, aluSignextend_of_le b ha], fun j hj => getLsbD_signExtendByte b ha hj⟩
  · exact ⟨_, fun j hj => getLsbD_signExtendByte b ha hj,
      exec_signextend_of_ok hready (signextendEffect_of_le hstack ha)⟩
  · exact exec_signextend_of_ok hready (signextendEffect_passthrough hstack ha hopt)
  · rw [exec_signextend, issue_error (checks_signextend hready) (signextendEffect_fault hstack ha hopt)]
    rfl

end Sys2Proof.Machine
end

section
/-!
The ALU port (30_encoding.md R82; 40_alu_arithmetic.md R100, R113 to R116): word construction, the function a select names,
which answers are errors, and the step that answers a request.
-/

namespace Sys2Proof.Machine

theorem wordConstruct_of_lt {d : List Byte} (h : 32 < d.length) : wordConstruct d = .error .overflow := if_pos h

theorem wordConstruct_of_le {d : List Byte} (h : d.length ≤ 32) : wordConstruct d = .result (packBytes d) :=
  if_neg (Nat.not_lt.mpr h)

/-- Settles O15, by the bytes of the word that the bytes given make. -/
theorem wordConstructionRightAligned : Obligations.WordConstructionRightAligned := fun _ =>
  ⟨wordConstruct_of_lt, fun hlen =>
    ⟨_, wordConstruct_of_le hlen, fun _ hj => byteLE_packBytes hlen hj, fun _ hk _ => byteLE_packBytes_high hlen hk⟩⟩

/-- Word construction answers `Overflow` for more than 32 bytes, and no other error (R100, R116). -/
theorem wordConstruct_eq_error {d : List Byte} {k : ErrorKind} :
    wordConstruct d = .error k ↔ k = .overflow ∧ 32 < d.length := by
  rcases Nat.lt_or_ge 32 d.length with long | short
  · simp [wordConstruct_of_lt long, long, eq_comm]
  · simp [wordConstruct_of_le short, Nat.not_lt.mpr short]

/-- ISNEG answers the most significant bit (R127). -/
theorem aluIsneg_eq (a : Word) : aluIsneg a = if a.msb then 1 else 0 := by
  rw [aluIsneg, getLsbD_255, boolWord]

/-- Settles O12: the two rules, by the functions at the port. -/
theorem negAndIsnegAtThePort : Obligations.NegAndIsnegAtThePort :=
  ⟨portRule_of (fun a _ => aluNeg a) rfl rfl (fun _ _ _ => rfl) (fun _ => rfl) fun _ _ => rfl,
    portRule_of (fun a _ => aluIsneg a) rfl rfl (fun _ _ _ => rfl) (fun _ => rfl) fun a _ => aluIsneg_eq a⟩

/-- The function selects of the port (R82). -/
def aluSelects : List Byte := aluFunctions.map Prod.fst

/-- The port answers by the row of the select, or the select names no function (R82, R114). -/
theorem alu_cases (fn : Byte) :
    (fn ∉ aluSelects ∧ ∀ a b c, alu fn a b c = .error .invalidInstruction) ∨
    ∃ p ∈ aluFunctions, p.1 = fn ∧ ∀ a b c, alu fn a b c = p.2 a b c := by
  cases hrow : aluFunctions.find? (fun p => decide (p.1 = fn)) with
  | none =>
    refine .inl ⟨fun hmem => ?_, fun a b c => by rw [alu, hrow]⟩
    obtain ⟨p, hp, hfn⟩ := List.mem_map.mp hmem
    exact List.find?_eq_none.mp hrow p hp (decide_eq_true hfn)
  | some p =>
    have hfn : p.1 = fn := by simpa only [decide_eq_true_eq] using List.find?_some hrow
    exact .inr ⟨p, List.mem_of_find?_eq_some hrow, hfn, fun a b c => by rw [alu, hrow]⟩

/-- A row of the table of the port answers an error only for SIGNEXTEND with an index above 31 (R116). -/
def RowErrs (p : Byte × (Word → Word → Word → PortAnswer)) : Prop :=
  ∀ (a b c : Word) (k : ErrorKind), p.2 a b c = .error k ↔ k = .rangeError ∧ p.1 = 0x0b ∧ 31 < a.toNat

/-- A row whose function always answers a result, at another select than SIGNEXTEND's. -/
theorem rowErrs_of_result {fn : Byte} {f : Word → Word → Word → PortAnswer} (hf : ∀ a b c, ∃ r, f a b c = .result r)
    (hfn : fn ≠ 0x0b) : RowErrs (fn, f) := by
  intro a b c k
  obtain ⟨r, hr⟩ := hf a b c
  dsimp only
  rw [hr]
  exact iff_of_false nofun fun ⟨_, hsel, _⟩ => hfn hsel

theorem rowErrs_unary {fn : Byte} (f : Word → Word) (hfn : fn ≠ 0x0b) : RowErrs (fn, portUnary f) :=
  rowErrs_of_result (fun a _ _ => ⟨f a, rfl⟩) hfn

theorem rowErrs_binary {fn : Byte} (f : Word → Word → Word) (hfn : fn ≠ 0x0b) : RowErrs (fn, portBinary f) :=
  rowErrs_of_result (fun a b _ => ⟨f a b, rfl⟩) hfn

theorem rowErrs_ternary {fn : Byte} (f : Word → Word → Word → Word) (hfn : fn ≠ 0x0b) : RowErrs (fn, portTernary f) :=
  rowErrs_of_result (fun a b c => ⟨f a b c, rfl⟩) hfn

theorem rowErrs_signextend : RowErrs (0x0b, fun a b _ => aluSignextend a b) := by
  intro a b c k
  rcases Nat.lt_or_ge 31 a.toNat with out | inside
  · simp [aluSignextend_of_lt b out, out, eq_comm]
  · simp [aluSignextend_of_le b inside, Nat.not_lt.mpr inside]

theorem aluFunctions_rowErrs : ∀ p ∈ aluFunctions, RowErrs p := by
  simp (disch := decide) only [aluFunctions, List.forall_mem_cons, List.not_mem_nil, rowErrs_unary, rowErrs_binary,
    rowErrs_ternary, rowErrs_signextend, false_imp_iff, implies_true, and_self]

/-- The errors of the port, over all selects (R82, R116). -/
theorem alu_eq_error {fn : Byte} {a b c : Word} {k : ErrorKind} : alu fn a b c = .error k ↔
    (k = .rangeError ∧ fn = 0x0b ∧ 31 < a.toNat) ∨ (k = .invalidInstruction ∧ fn ∉ aluSelects) := by
  rcases alu_cases fn with ⟨unnamed, hanswer⟩ | ⟨p, hp, rfl, hanswer⟩
  · have hother : fn ≠ 0x0b := by
      rintro rfl
      exact unnamed (by decide)
    rw [hanswer]
    constructor
    · rintro ⟨⟩
      exact .inr ⟨rfl, unnamed⟩
    · rintro (⟨-, hsel, -⟩ | ⟨rfl, -⟩)
      · exact absurd hsel hother
      · rfl
  · have named : p.1 ∈ aluSelects := List.mem_map_of_mem hp
    rw [hanswer, aluFunctions_rowErrs p hp a b c k]
    simp [named]

/-- Settles O14, by `alu_eq_error` and `wordConstruct_eq_error`; the statement's list is that of the table's selects. -/
theorem portErrorsAreTheThreeStated : Obligations.PortErrorsAreTheThreeStated :=
  ⟨fun _ _ _ _ _ => alu_eq_error, fun _ _ => wordConstruct_eq_error⟩

/-- A request of the host comes before the step of the block (log 9). -/
theorem step_of_request {s : State} {r : PortRequest} (hreset : s.host.reset = none) (hreq : s.host.request = some r) :
    step s = portRequestStep r s := by
  simp only [step, hreset, hreq]

/-- An instruction that stands for a function of the port answers what the port answers to its select (R82). -/
theorem exec_of_decodeSelect {fn : Byte} {i : Instr} (h : decodeSelect fn = some i) (s : State) :
    exec i s = .next (s.answerPort (alu fn s.host.a s.host.b s.host.c)) := by
  unfold decodeSelect at h
  split_ifs at h <;> (subst_vars; obtain rfl := Option.some.inj h; rfl)

/-- A request for a function is answered by the port's function of the operand inputs (R114). -/
theorem portRequestStep_select (fn : Byte) (s : State) :
    portRequestStep (.select fn) s = .next (s.answerPort (alu fn s.host.a s.host.b s.host.c)) := by
  rw [portRequestStep, PortRequest.instr]
  cases h : decodeSelect fn with
  | some i => exact exec_of_decodeSelect h s
  | none => rfl

/-- Settles O16: whether or not the select is an instruction's, the answer is the port's and only the request and the answer
change. -/
theorem portRequestsLeaveTheBlockAlone : Obligations.PortRequestsLeaveTheBlockAlone := by
  refine fun s hreset => ⟨fun fn hreq => ?_, fun d hreq => ?_⟩
  · rw [step_of_request hreset hreq, portRequestStep_select]
    rfl
  · rw [step_of_request hreset hreq]
    rfl

end Sys2Proof.Machine
end

section
/-!
The comparisons and the bitwise functions (41_alu_compare_bitwise.md R120 to R126, R128 to R132): what each answers, as the spec
states it, and the rule of its instruction from that.
-/

namespace Sys2Proof.Machine

/-- The Boolean word of a test is 1 or 0 by any condition equivalent to the test (R120). -/
theorem boolWord_decide_of_iff {p q : Prop} [Decidable p] [Decidable q] (h : p ↔ q) :
    boolWord (decide p) = if q then 1 else 0 := by
  by_cases hp : p
  · rw [decide_eq_true hp, if_pos (h.mp hp)]
    rfl
  · rw [decide_eq_false hp, if_neg (mt h.mpr hp)]
    rfl

theorem uval_lt_iff (a b : Word) : uval a < uval b ↔ a.toNat < b.toNat := Int.ofNat_lt

theorem uval_eq_zero_iff (a : Word) : uval a = 0 ↔ a.toNat = 0 := Int.natCast_eq_zero

theorem aluLt_eq (a b : Word) : aluLt a b = if a.toNat < b.toNat then 1 else 0 :=
  boolWord_decide_of_iff (uval_lt_iff a b)

theorem aluGt_eq (a b : Word) : aluGt a b = if b.toNat < a.toNat then 1 else 0 :=
  boolWord_decide_of_iff (uval_lt_iff b a)

theorem aluSlt_eq (a b : Word) : aluSlt a b = if a.toInt < b.toInt then 1 else 0 :=
  boolWord_decide_of_iff Iff.rfl

theorem aluSgt_eq (a b : Word) : aluSgt a b = if b.toInt < a.toInt then 1 else 0 :=
  boolWord_decide_of_iff gt_iff_lt

theorem aluEq_eq (a b : Word) : aluEq a b = if a.toNat = b.toNat then 1 else 0 :=
  boolWord_decide_of_iff BitVec.toNat_inj.symm

/-- Settles O7, by the equations of the five comparisons. -/
theorem comparisonsAnswerOneOrZero : Obligations.ComparisonsAnswerOneOrZero :=
  ⟨binaryRule_of infoLt aluLt rfl (fun _ _ _ => rfl) (fun _ => rfl) rfl rfl rfl rfl aluLt_eq,
    binaryRule_of infoGt aluGt rfl (fun _ _ _ => rfl) (fun _ => rfl) rfl rfl rfl rfl aluGt_eq,
    binaryRule_of infoSlt aluSlt rfl (fun _ _ _ => rfl) (fun _ => rfl) rfl rfl rfl rfl aluSlt_eq,
    binaryRule_of infoSgt aluSgt rfl (fun _ _ _ => rfl) (fun _ => rfl) rfl rfl rfl rfl aluSgt_eq,
    binaryRule_of infoEq aluEq rfl (fun _ _ _ => rfl) (fun _ => rfl) rfl rfl rfl rfl aluEq_eq⟩

theorem aluIszero_eq (a : Word) : aluIszero a = if a.toNat = 0 then 1 else 0 :=
  boolWord_decide_of_iff (uval_eq_zero_iff a)

/-- The complement of the bits is the distance to the greatest word, which needs no narrowing (R131). -/
theorem aluNot_eq (a : Word) : aluNot a = BitVec.ofNat 256 (2 ^ 256 - 1 - a.toNat) := by
  have hfits : 2 ^ 256 - 1 - a.toNat < 2 ^ 256 := by omega
  apply BitVec.eq_of_toNat_eq
  rw [aluNot, BitVec.toNat_not, BitVec.toNat_ofNat, Nat.mod_eq_of_lt hfits]

/-- Settles O8, by the equations of the two functions. -/
theorem iszeroAndNot : Obligations.IszeroAndNot :=
  ⟨unaryRule_of infoIszero aluIszero rfl (fun _ _ _ => rfl) (fun _ => rfl) rfl rfl rfl rfl aluIszero_eq,
    unaryRule_of infoNot aluNot rfl (fun _ _ _ => rfl) (fun _ => rfl) rfl rfl rfl rfl aluNot_eq⟩

theorem getLsbD_aluAnd (a b : Word) (j : Nat) : (aluAnd a b).getLsbD j = (a.getLsbD j && b.getLsbD j) :=
  BitVec.getLsbD_and

theorem getLsbD_aluOr (a b : Word) (j : Nat) : (aluOr a b).getLsbD j = (a.getLsbD j || b.getLsbD j) :=
  BitVec.getLsbD_or

theorem getLsbD_aluXor (a b : Word) (j : Nat) : (aluXor a b).getLsbD j = (a.getLsbD j ^^ b.getLsbD j) :=
  BitVec.getLsbD_xor

/-- Settles O9: the functions are those of the ALU, whose bits are stated above. -/
theorem bitwiseAndOrXor : Obligations.BitwiseAndOrXor :=
  ⟨⟨aluAnd, binaryRule_of infoAnd aluAnd rfl (fun _ _ _ => rfl) (fun _ => rfl) rfl rfl rfl rfl fun _ _ => rfl,
      getLsbD_aluAnd⟩,
    ⟨aluOr, binaryRule_of infoOr aluOr rfl (fun _ _ _ => rfl) (fun _ => rfl) rfl rfl rfl rfl fun _ _ => rfl,
      getLsbD_aluOr⟩,
    ⟨aluXor, binaryRule_of infoXor aluXor rfl (fun _ _ _ => rfl) (fun _ => rfl) rfl rfl rfl rfl fun _ _ => rfl,
      getLsbD_aluXor⟩⟩

/-- The byte at a big index, as a word: the unsigned value without the bytes below it, reduced to one byte (R11, R132). -/
theorem setWidth_byteBE (b : Word) (i : Nat) :
    (byteBE b i).setWidth 256 = BitVec.ofNat 256 (b.toNat / 2 ^ (8 * (31 - i)) % 256) := by
  have hbase : (256 : Nat) ^ (31 - i) = 2 ^ (8 * (31 - i)) := by rw [pow_mul]; rfl
  rw [← BitVec.ofNat_toNat, byteBE, toNat_byteLE, hbase]

/-- BYTE counts from the most significant byte, and an index of 32 or more is no error (R132). -/
theorem aluByte_eq (a b : Word) :
    aluByte a b = if 32 ≤ a.toNat then 0 else BitVec.ofNat 256 (b.toNat / 2 ^ (8 * (31 - a.toNat)) % 256) :=
  if_congr ge_iff_le rfl (setWidth_byteBE b a.toNat)

/-- Settles O10, by the equation of BYTE. -/
theorem byteSelectsBigIndex : Obligations.ByteSelectsBigIndex :=
  binaryRule_of infoByte aluByte rfl (fun _ _ _ => rfl) (fun _ => rfl) rfl rfl rfl rfl aluByte_eq

end Sys2Proof.Machine
end

section
/-!
The shifts and the rotates (42_alu_shift_rotate.md R140 to R144): the shifts of the spec, stated by products and quotients of
integers, are the shifts of the bits, and each bit of a rotate is a bit of its operand.
-/

namespace Sys2Proof.Machine

/-- A product by a power of two, narrowed, moves the bits up and loses those past bit 255 (R140). -/
theorem word_mul_two_pow (b : Word) (n : Nat) : word (uval b * 2 ^ n) = b <<< n := by
  have hnat : uval b * 2 ^ n = ((b.toNat * 2 ^ n : Nat) : Int) := by simp [uval]
  apply BitVec.eq_of_toNat_eq
  rw [hnat, word_natCast, BitVec.toNat_ofNat, BitVec.toNat_shiftLeft, Nat.shiftLeft_eq]

/-- The quotient of the unsigned value by a power of two moves the bits down, with zeros at the top (R141). -/
theorem word_div_two_pow (b : Word) (n : Nat) : word (uval b / 2 ^ n) = b >>> n := by
  have hnat : uval b / 2 ^ n = ((b.toNat / 2 ^ n : Nat) : Int) := by simp [uval]
  have hfits : b.toNat / 2 ^ n < 2 ^ 256 := (Nat.div_le_self _ _).trans_lt b.isLt
  apply BitVec.eq_of_toNat_eq
  rw [hnat, word_natCast, BitVec.toNat_ofNat, BitVec.toNat_ushiftRight, Nat.shiftRight_eq_div_pow, Nat.mod_eq_of_lt hfits]

/-- The quotient of the signed value, rounded toward minus infinity, moves the bits down with copies of the sign (R142). -/
theorem word_fdiv_two_pow (b : Word) (n : Nat) : word (Int.fdiv (sval b) (2 ^ n)) = b.sshiftRight n := by
  have hfloor : Int.fdiv (sval b) (2 ^ n) = b.toInt >>> n := by
    rw [Int.fdiv_eq_ediv_of_nonneg _ (by positivity), Int.shiftRight_eq_div_pow, Nat.cast_pow, Nat.cast_ofNat, sval]
  rw [hfloor, word, BitVec.sshiftRight]

theorem aluShl_eq (a b : Word) : aluShl a b = if 256 ≤ a.toNat then 0 else b <<< a.toNat :=
  if_congr ge_iff_le rfl (word_mul_two_pow b a.toNat)

theorem aluShr_eq (a b : Word) : aluShr a b = if 256 ≤ a.toNat then 0 else b >>> a.toNat :=
  if_congr ge_iff_le rfl (word_div_two_pow b a.toNat)

/-- From an amount of 256 on, SAR answers the sign in every bit (R142). -/
theorem aluSar_eq (a b : Word) :
    aluSar a b = if 256 ≤ a.toNat then (if b.msb then BitVec.allOnes 256 else 0) else b.sshiftRight a.toNat := by
  rw [aluSar, getLsbD_255, wordOnes]
  exact if_congr ge_iff_le rfl (word_fdiv_two_pow b a.toNat)

/-- Settles O11, by the equations of the three shifts. -/
theorem shiftsByFullAmount : Obligations.ShiftsByFullAmount :=
  ⟨binaryRule_of infoShl aluShl rfl (fun _ _ _ => rfl) (fun _ => rfl) rfl rfl rfl rfl aluShl_eq,
    binaryRule_of infoShr aluShr rfl (fun _ _ _ => rfl) (fun _ => rfl) rfl rfl rfl rfl aluShr_eq,
    binaryRule_of infoSar aluSar rfl (fun _ _ _ => rfl) (fun _ => rfl) rfl rfl rfl rfl aluSar_eq⟩

/-- ROL moves bit `j` of its operand up by the amount, around the end (R143). -/
theorem getLsbD_aluRol (a b : Word) {j : Nat} (hj : j < 256) :
    (aluRol a b).getLsbD ((j + a.toNat) % 256) = b.getLsbD j := by
  have hm : a.toNat % 256 < 256 := Nat.mod_lt _ (by decide)
  rw [aluRol, BitVec.getLsbD_rotateLeft, Nat.mod_mod, Nat.add_mod, Nat.mod_eq_of_lt hj]
  generalize a.toNat % 256 = m at hm
  rcases Nat.lt_or_ge (j + m) 256 with stays | wraps
  · have hsource : j + m - m = j := by omega
    simp [Nat.mod_eq_of_lt stays, stays, hsource]
  · have hbit : (j + m) % 256 = j + m - 256 := by omega
    have hlow : j + m - 256 < m := by omega
    have hsource : 256 - m + (j + m - 256) = j := by omega
    simp [hbit, hlow, hsource]

/-- Bit `j` of ROR is the bit of its operand that stands the amount above it, around the end (R144). -/
theorem getLsbD_aluRor (a b : Word) {j : Nat} (hj : j < 256) :
    (aluRor a b).getLsbD j = b.getLsbD ((j + a.toNat) % 256) := by
  have hm : a.toNat % 256 < 256 := Nat.mod_lt _ (by decide)
  rw [aluRor, BitVec.getLsbD_rotateRight, Nat.mod_mod, Nat.add_mod, Nat.mod_eq_of_lt hj]
  generalize a.toNat % 256 = m at hm
  rcases Nat.lt_or_ge (j + m) 256 with stays | wraps
  · have hlow : j < 256 - m := by omega
    simp [Nat.mod_eq_of_lt stays, hlow, Nat.add_comm m j]
  · have hhigh : ¬ j < 256 - m := by omega
    have hsource : (j + m) % 256 = j - (256 - m) := by omega
    simp [hhigh, hj, hsource]

/-- Settles O13: the functions are those of the ALU, whose bits are stated above. -/
theorem rotatesAtThePort : Obligations.RotatesAtThePort :=
  ⟨⟨aluRol, portRule_of aluRol rfl rfl (fun _ _ _ => rfl) (fun _ => rfl) fun _ _ => rfl,
      fun a b _ hj => getLsbD_aluRol a b hj⟩,
    ⟨aluRor, portRule_of aluRor rfl rfl (fun _ _ _ => rfl) (fun _ => rfl) fun _ _ => rfl,
      fun a b _ hj => getLsbD_aluRor a b hj⟩⟩

end Sys2Proof.Machine
end

section
/-!
The instruction table (43_instruction_table.md R150 to R158): no byte value and no mnemonic stands in it twice, and the records
of the call family are the four of R83.
-/

namespace Sys2Proof.Machine

/-- No byte value is assigned twice (R158): each group of rows has its own ranges. -/
theorem rowValues_opcodeMap_nodup : (rowValues opcodeMap).Nodup := by
  have halu : (rowValues aluRows).Nodup := by rw [rowValues_aluRows]; decide
  have hseq : (rowValues seqRows).Nodup := by rw [rowValues_seqRows]; decide
  have hpush : (rowValues pushRows).Nodup := by rw [rowValues_pushRows]; exact List.nodup_range'
  have hdup : (rowValues dupRows).Nodup := by rw [rowValues_dupRows]; exact List.nodup_range'
  have hswap : (rowValues swapRows).Nodup := by rw [rowValues_swapRows]; exact List.nodup_range'
  have hext : (rowValues extRows).Nodup := by rw [rowValues_extRows]; decide
  simp only [opcodeMap, rowValues_append]
  refine halu.append (hseq.append (hpush.append (hdup.append (hswap.append hext ?_) ?_) ?_) ?_) ?_
  all_goals
    intro v
    simp only [rowValues_aluRows, rowValues_seqRows, rowValues_pushRows, rowValues_dupRows, rowValues_swapRows,
      rowValues_extRows, List.mem_append, List.mem_range'_1, List.mem_cons, List.not_mem_nil, or_false]
    omega

/-- The mnemonics of rows of the opcode map. -/
def rowNames (rows : List OpRow) : List String := rows.map fun r => r.info.mnemonic

theorem rowNames_append (rows rows' : List OpRow) : rowNames (rows ++ rows') = rowNames rows ++ rowNames rows' :=
  List.map_append

/-- The first two characters of a mnemonic: they tell the families PUSHn, DUPn and SWAPn from all other opcodes. -/
def initials (m : String) : List Char := m.toList.take 2

/-- The rows outside the three numbered families. -/
def plainRows : List OpRow := aluRows ++ seqRows ++ extRows

theorem opcodeMap_perm : opcodeMap.Perm (pushRows ++ (dupRows ++ (swapRows ++ plainRows))) := by
  have hmap : opcodeMap = (aluRows ++ seqRows) ++ ((pushRows ++ dupRows ++ swapRows) ++ extRows) := by
    simp only [opcodeMap, List.append_assoc]
  have hfamilies : pushRows ++ (dupRows ++ (swapRows ++ plainRows)) =
      (pushRows ++ dupRows ++ swapRows) ++ ((aluRows ++ seqRows) ++ extRows) := by
    simp only [plainRows, List.append_assoc]
  rw [hmap, hfamilies]
  exact List.perm_append_comm_assoc ..

/-- A family of rows told apart by its initials adds no mnemonic that the other rows have. -/
theorem rowNames_append_nodup {family others : List OpRow} {i : List Char} (hfamily : (rowNames family).Nodup)
    (hothers : (rowNames others).Nodup) (hi : ∀ m ∈ rowNames family, initials m = i)
    (hne : ∀ m ∈ rowNames others, initials m ≠ i) : (rowNames (family ++ others)).Nodup := by
  rw [rowNames_append]
  exact hfamily.append hothers fun m hm hm' => hne m hm' (hi m hm)

/-- No mnemonic names two opcodes (R158): none stands twice in a family or outside the families, and the initials keep the
families apart. -/
theorem rowNames_opcodeMap_nodup : (rowNames opcodeMap).Nodup := by
  have hplain : (rowNames plainRows).Nodup := by decide
  have hswap : (rowNames (swapRows ++ plainRows)).Nodup :=
    rowNames_append_nodup (i := ['S', 'W']) (by decide) hplain (by decide) (by decide)
  have hdup : (rowNames (dupRows ++ (swapRows ++ plainRows))).Nodup :=
    rowNames_append_nodup (i := ['D', 'U']) (by decide) hswap (by decide) (by decide)
  have hpush : (rowNames (pushRows ++ (dupRows ++ (swapRows ++ plainRows)))).Nodup :=
    rowNames_append_nodup (i := ['P', 'U']) (by decide) hdup (by decide) (by decide)
  exact (opcodeMap_perm.map _).nodup_iff.mpr hpush

/-- The records of the call family, in the order of the map (R83). -/
theorem callRecords : (opcodeMap.map OpRow.info).filter isCall =
    [infoCall, infoCallcode, infoDelegatecall, infoStaticcall] := rfl

/-- What the lookup answers is a record of the map and has the byte value (R150). -/
theorem lookupByValue_some {v : Byte} {e : OpInfo} (h : lookupByValue v = some e) :
    e ∈ opcodeMap.map OpRow.info ∧ e.value = v := by
  obtain ⟨r, hrow, rfl⟩ := Option.map_eq_some_iff.mp h
  obtain ⟨hr, hv⟩ := findRow_some hrow
  exact ⟨List.mem_map_of_mem hr, hv⟩

theorem callPredicate_of_call {e : OpInfo} (h : isCall e = true) (flag : OpInfo → Bool) :
    callPredicate flag e = .answer (flag e) := if_pos h

/-- The call predicates fail on a record that is no call (R153). -/
theorem callPredicate_of_not_call {e : OpInfo} (h : isCall e = false) (flag : OpInfo → Bool) :
    callPredicate flag e = .preconditionFailure := if_neg (by simp [h])

/-- A record that the lookup answers is a call exactly if it is one of the four of R83. -/
theorem isCall_lookup_iff {v : Byte} {e : OpInfo} (h : lookupByValue v = some e) :
    isCall e = true ↔ e ∈ [infoCall, infoCallcode, infoDelegatecall, infoStaticcall] := by
  rw [← callRecords, List.mem_filter]
  exact (and_iff_right (lookupByValue_some h).1).symm

/-- A byte value names a call exactly if it is one of the four of R83. -/
theorem isCall_lookup_iff_value {v : Byte} {e : OpInfo} (h : lookupByValue v = some e) :
    isCall e = true ↔ v ∈ ([0xf1, 0xf2, 0xf4, 0xfa] : List Byte) := by
  rw [isCall_lookup_iff h]
  constructor
  · intro he
    rw [← (lookupByValue_some h).2]
    fin_cases he <;> decide
  · intro hv
    fin_cases hv <;> (obtain rfl := Option.some.inj h; decide)

/-- The flags of the four calls (R83). -/
theorem callFlags_of_mem : ∀ e ∈ [infoCall, infoCallcode, infoDelegatecall, infoStaticcall],
    e.hasValue = decide (e.value = 0xf1 ∨ e.value = 0xf2) ∧ e.stateless = decide (e.value = 0xf2 ∨ e.value = 0xf4) ∧
      e.static = decide (e.value = 0xfa) ∧ e.delegate = decide (e.value = 0xf4) := by
  decide

/-- Settles O58: the values and the mnemonics have no repetition, and the lookup of a call answers one of four records. -/
theorem instructionTableProperties : Obligations.InstructionTableProperties := by
  have hvalues : (opcodeMap.map fun r => r.info.value).Nodup :=
    List.Nodup.of_map BitVec.toNat (by rw [List.map_map]; exact rowValues_opcodeMap_nodup)
  refine ⟨rfl, hvalues, rowNames_opcodeMap_nodup, fun v e hlookup => ?_⟩
  obtain ⟨-, rfl⟩ := lookupByValue_some hlookup
  refine ⟨rfl, isCall_lookup_iff_value hlookup, fun hnot => ?_, fun hcall => ?_⟩
  · have fails := callPredicate_of_not_call hnot
    exact ⟨fails _, fails _, fails _, fails _⟩
  · have answers := callPredicate_of_call hcall
    obtain ⟨hhasValue, hstateless, hstatic, hdelegate⟩ := callFlags_of_mem e ((isCall_lookup_iff hlookup).mp hcall)
    exact ⟨hhasValue ▸ answers _, hstateless ▸ answers _, hstatic ▸ answers _, hdelegate ▸ answers _⟩

end Sys2Proof.Machine
end

section
/-!
The lookup by name (43_instruction_table.md R151): what the trimming of a text leaves.
-/

namespace Sys2Proof.Machine

/-- A character that the trimming of a name takes for white space (R151, U7). -/
def isNameSpace (c : Char) : Bool := Config.nameWhitespace.contains c

theorem isNameSpace_iff (c : Char) :
    isNameSpace c = true ↔ c.toNat ∈ ([0x20, 0x09, 0x0a, 0x0d, 0x0b, 0x0c] : List Nat) := by
  simp [isNameSpace, Config.nameWhitespace, ← Char.toNat_inj]

theorem trimStart_eq_dropWhile (t : List Char) : trimStart t = t.dropWhile isNameSpace := by
  induction t with
  | nil => rfl
  | cons c cs ih => rw [trimStart, List.dropWhile_cons, ih, isNameSpace]

theorem trimName_eq_rdropWhile (t : List Char) : trimName t = (t.dropWhile isNameSpace).rdropWhile isNameSpace := by
  rw [trimName, trimStart_eq_dropWhile, trimStart_eq_dropWhile, List.rdropWhile]

/-- Trimming takes white space from both ends and nothing else. -/
theorem exists_append_trimName (t : List Char) : ∃ before after : List Char,
    (∀ c ∈ before ++ after, isNameSpace c = true) ∧ t = before ++ (trimName t ++ after) := by
  refine ⟨t.takeWhile isNameSpace, (t.dropWhile isNameSpace).rtakeWhile isNameSpace, fun c hc => ?_, ?_⟩
  · rcases List.mem_append.mp hc with hbefore | hafter
    · exact List.mem_takeWhile_imp hbefore
    · exact List.mem_rtakeWhile_imp hafter
  · rw [trimName_eq_rdropWhile, List.rdropWhile_append_rtakeWhile, List.takeWhile_append_dropWhile]

/-- In a text without white space there is nothing to drop. -/
theorem dropWhile_isNameSpace_eq_self {m : List Char} (hm : ∀ c ∈ m, isNameSpace c = false) :
    m.dropWhile isNameSpace = m :=
  List.dropWhile_eq_self_iff.mpr fun hl => by simp [hm _ (List.getElem_mem hl)]

theorem rdropWhile_isNameSpace_append {m after : List Char} (hm : ∀ c ∈ m, isNameSpace c = false)
    (hafter : ∀ c ∈ after, isNameSpace c = true) : (m ++ after).rdropWhile isNameSpace = m := by
  rw [List.rdropWhile, List.reverse_append, List.dropWhile_append_of_pos (by simpa using hafter),
    dropWhile_isNameSpace_eq_self (by simpa using hm), List.reverse_reverse]

/-- White space around a text that has none in it is what the trimming takes. -/
theorem trimName_append {before m after : List Char} (hspace : ∀ c ∈ before ++ after, isNameSpace c = true)
    (hm : ∀ c ∈ m, isNameSpace c = false) : trimName (before ++ (m ++ after)) = m := by
  obtain ⟨hbefore, hafter⟩ := List.forall_mem_append.mp hspace
  rw [trimName_eq_rdropWhile, List.dropWhile_append_of_pos hbefore]
  cases m with
  | nil => rw [List.nil_append, List.dropWhile_eq_nil_iff.mpr hafter, List.rdropWhile_nil]
  | cons c cs =>
    have hc : ¬ isNameSpace c = true := by simp [hm c]
    rw [List.cons_append, List.dropWhile_cons_of_neg hc, ← List.cons_append, rdropWhile_isNameSpace_append hm hafter]

/-- A text without white space is what the trimming leaves of another exactly if white space around it makes up the other. -/
theorem trimName_eq_iff {t m : List Char} (hm : ∀ c ∈ m, isNameSpace c = false) : trimName t = m ↔
    ∃ before after : List Char, (∀ c ∈ before ++ after, isNameSpace c = true) ∧ t = before ++ (m ++ after) := by
  constructor
  · rintro rfl
    exact exists_append_trimName t
  · rintro ⟨before, after, hspace, rfl⟩
    exact trimName_append hspace hm

/-- So the trimming takes nothing of a mnemonic (R151). -/
theorem mnemonic_no_space : ∀ r ∈ opcodeMap, (r.info.mnemonic.toList.all fun c => !isNameSpace c) = true := by
  simp only [opcodeMap, List.forall_mem_append]
  exact ⟨by decide, by decide, by decide, by decide, by decide, by decide⟩

/-- The lookup by name, by its two conditions (R151). -/
theorem lookupByName_iff (t : String) : lookupByName t = true ↔
    (∀ c ∈ t.toList, c.toNat ≤ 0x7f) ∧ ∃ r ∈ opcodeMap, trimName t.toList = r.info.mnemonic.toList := by
  simp only [lookupByName, Bool.and_eq_true, List.all_eq_true, decide_eq_true_eq, List.any_eq_true, beq_iff_eq,
    @eq_comm _ (trimName t.toList)]

/-- Settles O59, by what the trimming leaves: no mnemonic has white space in it. -/
theorem lookupByNameTrimsAndMatchesExactly : Obligations.LookupByNameTrimsAndMatchesExactly := by
  intro t
  simp only [lookupByName_iff, exists_and_left, ← isNameSpace_iff]
  refine and_congr_right fun _ => exists_congr fun r => and_congr_right fun hr => ?_
  have hspaceless : ∀ c ∈ r.info.mnemonic.toList, isNameSpace c = false := by simpa using mnemonic_no_space r hr
  exact trimName_eq_iff hspaceless

end Sys2Proof.Machine
end

section
/-!
What a ready instruction of the sequencer does (44_seq_stack_control.md R170): the step at a decoded instruction, the meaning of
an instruction that passes the checks from its effect of step 7 alone, and the trace event of a step (R172).
-/

namespace Sys2Proof.Machine

/-- Where the sequencer has a step, it runs the instruction that the bytes at `pc` decode to (R170). -/
theorem step_of_decode {s : State} {i : Instr} (hen : s.Enabled) (hdec : decode (s.codeFrom s.pc) = .instr i) :
    step s = exec i s := by
  rw [step_of_enabled hen, sequencerStep, hdec]

/-- Settles O54: the step is the sequencer's, which adds nothing to the meaning of the instruction it decodes. -/
theorem stepRunsTheDecodedInstruction : Obligations.StepRunsTheDecodedInstruction :=
  fun _ _ hen hdec _ => step_of_decode hen hdec

/-- An effect of step 7 ends in no exception (R310): from a running state it runs on, or halts by Normal or Revert. -/
theorem GoodEffect.halt_ne_exception {e : OpInfo} {f : State → Except ErrorKind State} {s t : State} (good : GoodEffect e f)
    (hrun : s.halt = .running) (h : f s = .ok t) (k : ErrorKind) : t.halt ≠ .exception k := by
  rcases good.halt s t h with stays | normal | reverts
  · rw [stays, hrun]
    nofun
  · rw [normal]
    nofun
  · rw [reverts]
    nofun

/-- Settles O43, by what a sequencer step can do: raise and hand off leave the trace; completion is `State.retire`, which
appends the event, and an effect writes neither `ext` nor an exception. -/
theorem stepEffectOnTheTrace : Obligations.StepEffectOnTheTrace := by
  intro s t hen hstep
  rw [step_of_enabled hen] at hstep
  obtain ⟨-, -, hrun, hext⟩ := hen
  rcases sequencerStep_next hstep with ⟨k, rfl⟩ | ⟨e, -, -, -, rfl⟩ | ⟨e, f, u, good, -, hvalue, -, -, hu, rfl⟩
  · exact .inl ⟨⟨k, rfl⟩, rfl⟩
  · exact .inr (.inl ⟨rfl, hrun, rfl⟩)
  · obtain ⟨huext, -⟩ := good.frame s u hu
    have hends := good.halt_ne_exception hrun hu
    refine .inr (.inr ⟨huext.trans hext, hends, ?_⟩)
    rw [State.retire_trace, State.retire_stack, hvalue]

/-- The record of an instruction is the one its opcode byte finds (R150). -/
theorem lookupByValue_opcode {i : Instr} {e : OpInfo} (hi : i.info = some e) :
    lookupByValue i.opcode = some e ∧ e.value = i.opcode := by
  obtain ⟨r, hrow, hbuild⟩ := findRow_opcode hi
  obtain ⟨hr, hvalue⟩ := findRow_some hrow
  obtain ⟨-, hinfo, -, -, -, -, hlookup⟩ := opcodeMap_agree r hr i.imm
  rw [hbuild, hi] at hinfo
  obtain rfl : e = r.info := Option.some.inj hinfo
  exact ⟨hvalue ▸ hlookup, hvalue⟩

/-- The instruction `i`, of opcode byte `v` and the counts of R76, is the issue of the effect `f`: once it is ready, the outcome
is what step 8 makes of the effect (R170). -/
structure Issues (i : Instr) (v : Byte) (pops pushes : Nat) (f : State → Except ErrorKind State) : Prop where
  completes : ∀ {s t : State}, s.Ready v pops pushes → f s = .ok t → exec i s = .next (s.retire v t)
  raises : ∀ {s : State} {k : ErrorKind}, s.Ready v pops pushes → f s = .error k → exec i s = .next (s.raise k)

/-- An instruction issues the effect that its meaning names, with the numbers of its record. -/
theorem issues_of {i : Instr} {e : OpInfo} {v : Byte} {pops pushes : Nat} {f : State → Except ErrorKind State}
    (hi : i.info = some e) (hv : e.value = v) (hp : e.pops = pops) (hq : e.pushes = pushes)
    (hx : ∀ s, exec i s = issue e f s) : Issues i v pops pushes f := by
  obtain ⟨hlookup, hvalue⟩ := lookupByValue_opcode hi
  have hchecks {s : State} (hready : s.Ready v pops pushes) : s.checks e = none :=
    checks_of_ready (by rwa [← hv, hvalue]) hv hp hq hready
  refine ⟨fun hready hok => ?_, fun hready herror => ?_⟩
  · rw [hx, issue_ok (hchecks hready) hok, hv]
  · rw [hx, issue_error (hchecks hready) herror]

/-- An effect that goes to the next byte with a new stack leaves what `State.done` says. -/
theorem Issues.exec_advance {i : Instr} {v : Byte} {pops pushes : Nat} {f : State → Except ErrorKind State} {s : State}
    {stack : List Word} (hi : Issues i v pops pushes f) (hready : s.Ready v pops pushes)
    (hok : f s = .ok (s.advance stack)) : exec i s = .next (s.done v stack (s.pc + 1)) := by
  rw [hi.completes hready hok, State.retire_advance]

end Sys2Proof.Machine
end

section
/-!
STOP, RETURN and REVERT (44_seq_stack_control.md R173, R174, R183, R184): the normal ends of a run.
-/

namespace Sys2Proof.Machine

theorem stop_issues : Issues .stop 0x00 0 0 stopEffect := issues_of rfl rfl rfl rfl fun _ => rfl

theorem return_issues : Issues .return_ 0xf3 2 0 (outputEffect .normal) := issues_of rfl rfl rfl rfl fun _ => rfl

theorem revert_issues : Issues .revert 0xfd 2 0 (outputEffect .revert) := issues_of rfl rfl rfl rfl fun _ => rfl

/-- A ready STOP sets `halt`, appends its event, and uses one answer of the meter (R173). -/
theorem exec_stop_of_ready {s : State} (hready : s.Ready 0x00 0 0) :
    exec .stop s = .next (s.retire 0x00 { s with halt := .normal }) :=
  stop_issues.completes hready rfl

/-- Settles O17, by `exec_stop_of_ready`. -/
theorem stopHaltsNormally : Obligations.StopHaltsNormally := ⟨rfl, fun _ hready => exec_stop_of_ready hready⟩

/-- STOP that is not activated is illegal (R303). -/
theorem exec_stop_of_inactive {s : State} (h : s.cfg.active.getLsbD 0 = false) :
    exec .stop s = .next (s.raise .illegalOperation) := by
  have hinactive : s.isActive infoStop.value = false := (isActive_of_lookup (v := 0x00) rfl).trans h
  have hchecks : s.checks infoStop = some .illegalOperation := if_pos hinactive
  exact issue_check (effect := stopEffect) hchecks

/-- Settles O18: past the end of the code the sequencer runs STOP. -/
theorem fetchPastTheEndIsStop : Obligations.FetchPastTheEndIsStop := by
  intro s hen hend
  have hstep : step s = exec .stop s := step_of_decode hen (decode_past_end hend)
  refine ⟨hstep, fun hinactive => ?_, fun hready => ?_⟩
  · rw [hstep]
    exact exec_stop_of_inactive hinactive
  · exact ⟨_, hstep.trans (exec_stop_of_ready hready), rfl, rfl, rfl, rfl⟩

section
variable {s : State} {off size : Word} {rest : List Word} (hstack : s.stack = off :: size :: rest) (outcome : Halt)
include hstack

/-- The range of RETURN and REVERT is accepted: `RET` takes its bytes, and the run halts (R183, R184). -/
theorem outputEffect_of_le (hle : size.toNat = 0 ∨ off.toNat + size.toNat ≤ s.memLimit) :
    outputEffect outcome s = .ok { s with
      stack := rest
      msize := grownTo s.msize off.toNat size.toNat
      ret := memRead s.mem off.toNat size.toNat
      halt := outcome } := by
  simp only [outputEffect, hstack, State.touch, touch_of_le hle]

/-- A nonempty range past `MEM_LIMIT` is refused. -/
theorem outputEffect_of_lt (hne : size.toNat ≠ 0) (hlt : s.memLimit < off.toNat + size.toNat) :
    outputEffect outcome s = .error .outOfResource := by
  simp only [outputEffect, hstack, State.touch, touch_of_lt hne hlt]

end

/-- Settles O19: both instructions issue `outputEffect`, which is decided by the range. -/
theorem returnAndRevertOutput : Obligations.ReturnAndRevertOutput :=
  ⟨⟨rfl, fun _ _ _ _ hstack hready =>
      ⟨fun hle => return_issues.completes hready (outputEffect_of_le hstack .normal hle),
        fun hne hlt => return_issues.raises hready (outputEffect_of_lt hstack .normal hne hlt)⟩⟩,
    ⟨rfl, fun _ _ _ _ hstack hready =>
      ⟨fun hle => revert_issues.completes hready (outputEffect_of_le hstack .revert hle),
        fun hne hlt => revert_issues.raises hready (outputEffect_of_lt hstack .revert hne hlt)⟩⟩⟩

end Sys2Proof.Machine
end

section
/-!
The stack instructions (44_seq_stack_control.md R175 to R178). The families PUSHn, DUPn and SWAPn are the rows of their tables in
the opcode map, each row with its number `n`.
-/

namespace Sys2Proof.Machine

theorem pop_issues : Issues .pop 0x50 1 0 popEffect := issues_of rfl rfl rfl rfl fun _ => rfl

theorem popEffect_of_cons {s : State} {a : Word} {rest : List Word} (hstack : s.stack = a :: rest) :
    popEffect s = .ok (s.advance rest) := by
  simp only [popEffect, hstack]

/-- Settles O20, by the effect of POP on a stack with a top. -/
theorem popRemovesTheTop : Obligations.PopRemovesTheTop :=
  ⟨rfl, fun _ _ _ hstack hready => pop_issues.exec_advance hready (popEffect_of_cons hstack)⟩

/-- The rows of PUSHn, with `n` the length of the immediate (R76, R176). -/
theorem pushRows_issue : ∀ r ∈ pushRows, findRow (BitVec.ofNat 8 (0x5f + r.info.imm)) = some r ∧
    ∀ imm, Issues (r.build imm) (BitVec.ofNat 8 (0x5f + r.info.imm)) 0 1 (pushEffect r.info.imm imm) := by
  intro r hr
  fin_cases hr <;> exact ⟨rfl, fun _ => issues_of rfl rfl rfl rfl fun _ => rfl⟩

/-- A ready PUSHn pushes its immediate and moves `pc` over its `1 + n` bytes. -/
theorem exec_push {r : OpRow} (hr : r ∈ pushRows) (imm : Word) {s : State}
    (hready : s.Ready (BitVec.ofNat 8 (0x5f + r.info.imm)) 0 1) :
    exec (r.build imm) s =
      .next (s.done (BitVec.ofNat 8 (0x5f + r.info.imm)) (imm :: s.stack) (s.pc + 1 + r.info.imm)) := by
  obtain ⟨-, hissues⟩ := pushRows_issue r hr
  exact (hissues imm).completes hready rfl

/-- Settles O21: the instructions of the statement are those that the rows of PUSHn build. -/
theorem pushesTheImmediateWord : Obligations.PushesTheImmediateWord := by
  intro p hp imm s hready
  change p ∈ pushRows.map fun r => (r.build, r.info.imm) at hp
  obtain ⟨r, hr, rfl⟩ := List.mem_map.mp hp
  exact exec_push hr imm hready

/-- There is a PUSHn for each `n` from 1 to 32. -/
theorem exists_pushRow {n : Nat} (hpos : 1 ≤ n) (hle : n ≤ 32) : ∃ r ∈ pushRows, r.info.imm = n := by
  have hlengths : pushRows.map (fun r => r.info.imm) = List.range' 1 32 := rfl
  have hn : n ∈ pushRows.map (fun r => r.info.imm) := by
    rw [hlengths, List.mem_range'_1]
    omega
  exact List.mem_map.mp hn

/-- The decoder at a byte whose row is known. -/
theorem decode_of_findRow {bytes : List Byte} {r : OpRow} (h : findRow (bytes.headD 0) = some r) :
    decode bytes = .instr (r.build (packBytes (takePadded r.info.imm bytes.tail))) := by
  simp only [decode, h]

/-- The bytes a fetch sees are `CodeRead` of the offsets from `a` on (R52). -/
theorem codeFrom_getD (s : State) (a j : Nat) : (s.codeFrom a).getD j 0 = s.codeRead (a + j) := by
  simp [State.codeFrom, State.codeRead, List.getD_eq_getElem?_getD]

/-- The immediate that PUSHn takes from the code: its bytes are `CodeRead(pc+1)` and on, most significant first, the rest of
the word is zero (R73, R176). -/
theorem byteLE_immediate {s : State} {n : Nat} (hle : n ≤ 32) :
    (∀ j, j < n → byteLE (packBytes (takePadded n (s.codeFrom s.pc).tail)) (n - 1 - j) = s.codeRead (s.pc + 1 + j)) ∧
      ∀ k, n ≤ k → byteLE (packBytes (takePadded n (s.codeFrom s.pc).tail)) k = 0 := by
  have htail : (s.codeFrom s.pc).tail = s.codeFrom (s.pc + 1) := List.tail_drop
  have hlen := takePadded_length n (s.codeFrom (s.pc + 1))
  rw [htail]
  refine ⟨fun j hj => ?_, fun k hk => byteLE_packBytes_high (by omega) (by omega)⟩
  have hbyte := byteLE_packBytes (hlen.trans_le hle) (hj.trans_eq hlen.symm)
  rwa [hlen, takePadded_getD n _ j hj, codeFrom_getD] at hbyte

/-- Settles O22: the byte at `pc` decodes to the row of PUSHn, with the immediate that the fetch makes of the bytes after it. -/
theorem pushReadsItsBytesFromTheCode : Obligations.PushReadsItsBytesFromTheCode := by
  intro s n hpos hle hen hop hready
  obtain ⟨r, hr, rfl⟩ := exists_pushRow hpos hle
  obtain ⟨hrow, -⟩ := pushRows_issue r hr
  rw [← hop, ← headD_codeFrom] at hrow
  obtain ⟨hbytes, hzeros⟩ := byteLE_immediate hle
  exact ⟨_, hbytes, fun k hk _ => hzeros k hk, (step_of_decode hen (decode_of_findRow hrow)).trans (exec_push hr _ hready)⟩

/-- The rows of DUPn, with `n` the count of operands (R76, R177). -/
theorem dupRows_issue : ∀ r ∈ dupRows, encode (r.build 0) = [BitVec.ofNat 8 (0x7f + r.info.pops)] ∧
    Issues (r.build 0) (BitVec.ofNat 8 (0x7f + r.info.pops)) r.info.pops (r.info.pops + 1) (dupEffect r.info.pops) := by
  intro r hr
  fin_cases hr <;> exact ⟨rfl, issues_of rfl rfl rfl rfl fun _ => rfl⟩

theorem dupEffect_of_entry {s : State} {n : Nat} {x : Word} (hx : s.stack[n - 1]? = some x) :
    dupEffect n s = .ok (s.advance (x :: s.stack)) := by
  simp only [dupEffect, State.peek, hx]

/-- Settles O23: the instructions of the statement are those that the rows of DUPn build. -/
theorem dupCopiesTheEntryAtDepth : Obligations.DupCopiesTheEntryAtDepth := by
  intro p hp
  change p ∈ dupRows.map fun r => (r.build 0, r.info.pops) at hp
  obtain ⟨r, hr, rfl⟩ := List.mem_map.mp hp
  obtain ⟨hencode, hissues⟩ := dupRows_issue r hr
  exact ⟨hencode, fun s x hx hready => hissues.exec_advance hready (dupEffect_of_entry hx)⟩

/-- The number `n` of a row of SWAPn, whose operands are `x[0]` to `x[n]` (R178). -/
def OpRow.swapDepth (r : OpRow) : Nat := r.info.pops - 1

/-- The rows of SWAPn (R76, R178). -/
theorem swapRows_issue : ∀ r ∈ swapRows, 0 < r.swapDepth ∧ encode (r.build 0) = [BitVec.ofNat 8 (0x8f + r.swapDepth)] ∧
    Issues (r.build 0) (BitVec.ofNat 8 (0x8f + r.swapDepth)) (r.swapDepth + 1) (r.swapDepth + 1)
      (swapEffect r.swapDepth) := by
  intro r hr
  fin_cases hr <;> exact ⟨by decide, rfl, issues_of rfl rfl rfl rfl fun _ => rfl⟩

/-- The exchange of the top with the entry below `between`. -/
theorem swapTop_append (x y : Word) (between rest : List Word) :
    swapTop (between.length + 1) (x :: (between ++ y :: rest)) = some (y :: (between ++ x :: rest)) := by
  simp [swapTop]

theorem swapEffect_of_stack {s : State} {x y : Word} {between rest : List Word}
    (hstack : s.stack = x :: (between ++ y :: rest)) :
    swapEffect (between.length + 1) s = .ok (s.advance (y :: (between ++ x :: rest))) := by
  simp only [swapEffect, hstack, swapTop_append]

/-- Settles O24: the instructions of the statement are those that the rows of SWAPn build. -/
theorem swapExchangesTopAndDepth : Obligations.SwapExchangesTopAndDepth := by
  intro p hp
  change p ∈ swapRows.map fun r => (r.build 0, r.swapDepth) at hp
  obtain ⟨r, hr, rfl⟩ := List.mem_map.mp hp
  obtain ⟨hpos, hencode, hissues⟩ := swapRows_issue r hr
  refine ⟨hencode, fun s x y between rest hlen hstack hready => hissues.exec_advance hready ?_⟩
  have hdepth : r.swapDepth = between.length + 1 := by
    dsimp only at hlen
    omega
  rw [hdepth]
  exact swapEffect_of_stack hstack

end Sys2Proof.Machine
end

section
/-!
The control transfers and the instructions that read the machine's own counters (44_seq_stack_control.md R179 to R182,
45_seq_memory.md R203).
-/

namespace Sys2Proof.Machine

theorem jump_issues : Issues .jump 0x56 1 0 jumpEffect := issues_of rfl rfl rfl rfl fun _ => rfl

theorem jumpi_issues : Issues .jumpi 0x57 2 0 jumpiEffect := issues_of rfl rfl rfl rfl fun _ => rfl

theorem pc_issues : Issues .pc 0x58 0 1 pcEffect := issues_of rfl rfl rfl rfl fun _ => rfl

theorem msize_issues : Issues .msize 0x59 0 1 msizeEffect := issues_of rfl rfl rfl rfl fun _ => rfl

theorem jumpdest_issues : Issues .jumpdest 0x5b 0 0 jumpdestEffect := issues_of rfl rfl rfl rfl fun _ => rfl

/-- The test of a target is membership in `JD` of the loaded code (R35). -/
theorem isJumpDest_iff {s : State} {t : Nat} :
    s.isJumpDest t = true ↔ t ∈ jumpDests s.cfg.code s.cfg.jumpdestRequired :=
  List.contains_iff_mem

section
variable {s : State} {t : Word} {rest : List Word} (hstack : s.stack = t :: rest)
include hstack

theorem jumpEffect_of_mem (hmem : t.toNat ∈ jumpDests s.cfg.code s.cfg.jumpdestRequired) :
    jumpEffect s = .ok { s with stack := rest, pc := t.toNat } := by
  simp only [jumpEffect, hstack, isJumpDest_iff.mpr hmem, if_true]

theorem jumpEffect_of_not_mem (hmem : t.toNat ∉ jumpDests s.cfg.code s.cfg.jumpdestRequired) :
    jumpEffect s = .error .invalidJump := by
  simp only [jumpEffect, hstack, if_neg (mt isJumpDest_iff.mp hmem)]

end

/-- Settles O25, by the two cases of the test of the target. -/
theorem jumpGoesToAValidDestination : Obligations.JumpGoesToAValidDestination :=
  ⟨rfl, fun _ _ _ hstack hready =>
    ⟨fun hmem => jump_issues.completes hready (jumpEffect_of_mem hstack hmem),
      fun hmem => jump_issues.raises hready (jumpEffect_of_not_mem hstack hmem)⟩⟩

/-- Every nonzero word is true (R120, R180). -/
theorem wordTrue_eq_false_iff {w : Word} : wordTrue w = false ↔ w.toNat = 0 := by
  rw [wordTrue, decide_eq_false_iff_not, not_not, eq_zero_iff_toNat]

section
variable {s : State} {t cond : Word} {rest : List Word} (hstack : s.stack = t :: cond :: rest)
include hstack

/-- With a zero condition JUMPI goes on, whatever the target (R180). -/
theorem jumpiEffect_of_zero (hcond : cond.toNat = 0) : jumpiEffect s = .ok (s.advance rest) := by
  simp only [jumpiEffect, hstack, wordTrue_eq_false_iff.mpr hcond, Bool.false_eq_true, if_false]

/-- With a nonzero condition JUMPI does what JUMP does once the condition is removed (R180). -/
theorem jumpiEffect_of_ne_zero (hcond : cond.toNat ≠ 0) :
    jumpiEffect s = jumpEffect { s with stack := t :: rest } := by
  have htrue : wordTrue cond = true := Bool.eq_true_of_not_eq_false (mt wordTrue_eq_false_iff.mp hcond)
  simp only [jumpiEffect, hstack, htrue, if_true]
  rfl

end

/-- Settles O26: a zero condition goes on, any other leaves the test of the target to JUMP. -/
theorem jumpiTestsTheCondition : Obligations.JumpiTestsTheCondition := by
  refine ⟨rfl, fun s t cond rest hstack hready => ⟨fun hzero => ?_, fun hne hmem => ?_, fun hne hmem => ?_⟩⟩
  · exact jumpi_issues.exec_advance hready (jumpiEffect_of_zero hstack hzero)
  · exact jumpi_issues.completes hready ((jumpiEffect_of_ne_zero hstack hne).trans (jumpEffect_of_mem rfl hmem))
  · exact jumpi_issues.raises hready ((jumpiEffect_of_ne_zero hstack hne).trans (jumpEffect_of_not_mem rfl hmem))

theorem pcEffect_eq (s : State) : pcEffect s = .ok (s.advance (BitVec.ofNat 256 s.pc :: s.stack)) := by
  rw [pcEffect, word_natCast]

theorem msizeEffect_eq (s : State) : msizeEffect s = .ok (s.advance (BitVec.ofNat 256 s.msize :: s.stack)) := by
  rw [msizeEffect, word_natCast]

/-- Settles O29, by the effects of the three instructions, which no operand decides. -/
theorem pcMsizeAndJumpdest : Obligations.PcMsizeAndJumpdest :=
  ⟨⟨rfl, fun s hready => pc_issues.exec_advance hready (pcEffect_eq s)⟩,
    ⟨rfl, fun s hready => msize_issues.exec_advance hready (msizeEffect_eq s)⟩,
    ⟨rfl, fun _ hready => jumpdest_issues.exec_advance hready rfl⟩⟩

end Sys2Proof.Machine
end

section
/-!
The data-memory instructions (45_seq_memory.md R200 to R202): what a write of many bytes reads back, the effects of the load and
of the two stores by their range, and a load after a store at the same offset (20_memory.md R57, R58, R64).
-/

namespace Sys2Proof.Machine

theorem mload_issues : Issues .mload 0x51 1 1 mloadEffect := issues_of rfl rfl rfl rfl fun _ => rfl

theorem mstore_issues : Issues .mstore 0x52 2 0 (storeEffect bytes32) := issues_of rfl rfl rfl rfl fun _ => rfl

theorem mstore8_issues : Issues .mstore8 0x53 2 0 (storeEffect fun val => [byteLE val 0]) :=
  issues_of rfl rfl rfl rfl fun _ => rfl

/-- The word of 32 bytes of memory has the byte of the lowest offset as its most significant one (R200). -/
theorem byteBE_packBytes_memRead (m : Memory) (a : Nat) {j : Nat} (hj : j < 32) :
    byteBE (packBytes (memRead m a 32)) j = m.read (a + j) := by
  have hlen := memRead_length m a 32
  have hbyte := byteLE_packBytes hlen.le (hj.trans_eq hlen.symm)
  rwa [hlen, memRead_getD m a hj] at hbyte

section
variable {s : State} {off : Word} {rest : List Word} (hstack : s.stack = off :: rest)
include hstack

theorem mloadEffect_of_le (hle : off.toNat + 32 ≤ s.memLimit) :
    mloadEffect s = .ok { s with
      stack := packBytes (memRead s.mem off.toNat 32) :: rest
      msize := grownTo s.msize off.toNat 32
      pc := s.pc + 1 } := by
  simp only [mloadEffect, hstack, State.touch, touch_of_le (.inr hle)]

theorem mloadEffect_of_lt (hlt : s.memLimit < off.toNat + 32) : mloadEffect s = .error .outOfResource := by
  simp only [mloadEffect, hstack, State.touch, touch_of_lt (by decide) hlt]

end

/-- Settles O30, by the two ranges of the offset and the bytes of the word that is loaded. -/
theorem mloadReadsThirtyTwoBytes : Obligations.MloadReadsThirtyTwoBytes :=
  ⟨rfl, fun s off _ hstack hready =>
    ⟨fun hle => ⟨_, fun _ hj => byteBE_packBytes_memRead s.mem off.toNat hj,
        mload_issues.completes hready (mloadEffect_of_le hstack hle)⟩,
      fun hlt => mload_issues.raises hready (mloadEffect_of_lt hstack hlt)⟩⟩

section
variable {m : Memory} (hwf : m.wf = true) (a : Nat) (bs : List Byte)
include hwf

theorem read_memWrite_inside {j : Nat} (hj : j < bs.length) : (memWrite m a bs).read (a + j) = bs.getD j 0 := by
  rw [read_memWrite hwf, if_pos (by omega), Nat.add_sub_cancel_left]

theorem read_memWrite_outside {x : Nat} (hx : x < a ∨ a + bs.length ≤ x) : (memWrite m a bs).read x = m.read x := by
  rw [read_memWrite hwf, if_neg (by omega)]

/-- `MemRead` of the range that `MemWrite` wrote gives the bytes written (R57, R58). -/
theorem memRead_memWrite : memRead (memWrite m a bs) a bs.length = bs := by
  refine List.ext_getElem (memRead_length _ _ _) fun j _ hj => ?_
  have hread := read_memWrite_inside hwf a bs hj
  rw [List.getD_eq_getElem _ _ hj] at hread
  simpa [memRead] using hread

end

section
variable {bytesOf : Word → List Byte} {s : State} {off val : Word} {rest : List Word} (hstack : s.stack = off :: val :: rest)
include hstack

theorem storeEffect_of_le (hle : off.toNat + (bytesOf val).length ≤ s.memLimit) :
    storeEffect bytesOf s = .ok { s with
      stack := rest
      msize := grownTo s.msize off.toNat (bytesOf val).length
      mem := memWrite s.mem off.toNat (bytesOf val)
      pc := s.pc + 1 } := by
  simp only [storeEffect, hstack, State.touch, touch_of_le (.inr hle)]

theorem storeEffect_of_lt (hne : (bytesOf val).length ≠ 0) (hlt : s.memLimit < off.toNat + (bytesOf val).length) :
    storeEffect bytesOf s = .error .outOfResource := by
  simp only [storeEffect, hstack, State.touch, touch_of_lt hne hlt]

/-- A ready store whose range lies in the memory writes the bytes of its value there and no other byte (R201, R202). -/
theorem Issues.exec_store {i : Instr} {v : Byte} {n : Nat} (hi : Issues i v 2 0 (storeEffect bytesOf))
    (hready : s.Ready v 2 0) (hwf : s.mem.wf = true) (hlen : (bytesOf val).length = n)
    (hle : off.toNat + n ≤ s.memLimit) : ∃ m : Memory,
      (∀ j, j < n → m.read (off.toNat + j) = (bytesOf val).getD j 0) ∧
      (∀ a, a < off.toNat ∨ off.toNat + n ≤ a → m.read a = s.mem.read a) ∧
      exec i s = .next { s.done v rest (s.pc + 1) with mem := m, msize := grownTo s.msize off.toNat n } := by
  subst hlen
  exact ⟨_, fun _ hj => read_memWrite_inside hwf off.toNat _ hj, fun _ ha => read_memWrite_outside hwf off.toNat _ ha,
    hi.completes hready (storeEffect_of_le hstack hle)⟩

end

/-- Settles O31: `Issues.exec_store` for the 32 bytes of the canonical form. -/
theorem mstoreWritesThirtyTwoBytes : Obligations.MstoreWritesThirtyTwoBytes := by
  refine ⟨rfl, fun s off val rest hwf hstack hready => ⟨fun hle => ?_, fun hlt => ?_⟩⟩
  · obtain ⟨m, hinside, houtside, hexec⟩ := mstore_issues.exec_store hstack hready hwf (bytes32_length val) hle
    exact ⟨m, fun j hj => (hinside j hj).trans (bytes32_getD val hj), houtside, hexec⟩
  · exact mstore_issues.raises hready (storeEffect_of_lt hstack (by simp [bytes32_length]) (by rwa [bytes32_length]))

/-- Settles O32: `Issues.exec_store` for the one byte of the value. -/
theorem mstoreEightWritesTheLowByte : Obligations.MstoreEightWritesTheLowByte := by
  refine ⟨rfl, fun s off val rest hwf hstack hready => ⟨fun hle => ?_, fun hlt => ?_⟩⟩
  · obtain ⟨m, hinside, houtside, hexec⟩ := mstore8_issues.exec_store hstack hready hwf rfl hle
    refine ⟨m, fun j hj => ?_, houtside, hexec⟩
    obtain rfl : j = 0 := Nat.lt_one_iff.mp hj
    exact hinside 0 hj
  · exact mstore8_issues.raises hready (storeEffect_of_lt hstack Nat.one_ne_zero hlt)

/-- An opcode that leaves the block running did not raise: its effect completed. -/
theorem issue_running {e : OpInfo} {f : State → Except ErrorKind State} {s t : State} (h : issue e f s = .next t)
    (hrun : t.halt = .running) : ∃ u, f s = .ok u ∧ t = s.retire e.value u := by
  rcases issue_cases e f s with ⟨k, -, raises⟩ | ⟨k, -, -, raises⟩ | ⟨u, -, hu, completes⟩
  case inr.inr =>
    rw [completes] at h
    cases h
    exact ⟨u, hu, rfl⟩
  all_goals
    rw [raises] at h
    cases h
    cases hrun

/-- What a store that leaves the block running has done to the stack and the memory (R201). -/
theorem exec_mstore_running {s t : State} {off val : Word} {rest : List Word} (hstack : s.stack = off :: val :: rest)
    (h : exec .mstore s = .next t) (hrun : t.halt = .running) :
    t.stack = rest ∧ t.mem = memWrite s.mem off.toNat (bytes32 val) := by
  obtain ⟨u, hu, rfl⟩ := issue_running (e := infoMstore) (f := storeEffect bytes32) h hrun
  obtain ⟨off', val', rest', hstack', -, rfl⟩ := storeEffect_ok hu
  rw [hstack] at hstack'
  cases hstack'
  simp only [State.retire_stack, State.retire_mem, and_self]

/-- What a load that leaves the block running has done to the stack and the memory (R200). -/
theorem exec_mload_running {s t : State} {off : Word} {rest : List Word} (hstack : s.stack = off :: rest)
    (h : exec .mload s = .next t) (hrun : t.halt = .running) :
    t.stack = packBytes (memRead s.mem off.toNat 32) :: rest ∧ t.mem = s.mem := by
  obtain ⟨u, hu, rfl⟩ := issue_running (e := infoMload) (f := mloadEffect) h hrun
  obtain ⟨off', rest', hstack', -, rfl⟩ := mloadEffect_ok hu
  rw [hstack] at hstack'
  cases hstack'
  simp only [State.retire_stack, State.retire_mem, and_self]

/-- The word read where a word was written is that word (R64). -/
theorem packBytes_memRead_memWrite {m : Memory} (hwf : m.wf = true) (a : Nat) (w : Word) :
    packBytes (memRead (memWrite m a (bytes32 w)) a 32) = w := by
  have hread := memRead_memWrite hwf a (bytes32 w)
  rw [bytes32_length] at hread
  rw [hread, packBytes_bytes32]

/-- Settles O33: the load reads the range that the store wrote. -/
theorem loadAfterStoreReturnsTheWord : Obligations.LoadAfterStoreReturnsTheWord := by
  intro s t u off val rest hwf hstack hstore hkept hrun hload hrun'
  obtain ⟨htstack, htmem⟩ := exec_mstore_running hstack hstore (hkept.trans hrun)
  obtain ⟨hustack, humem⟩ := exec_mload_running rfl hload hrun'
  refine ⟨?_, fun a => by rw [humem]⟩
  rw [hustack, htstack, htmem, packBytes_memRead_memWrite hwf]

end Sys2Proof.Machine
end

section
/-!
The mark `msize` during a run (45_seq_memory.md R203; 20_memory.md R59; 46_external_opcodes.md R210): no step but a reset lowers
it, whoever acts.
-/

namespace Sys2Proof.Machine

/-- However a sequencer step ends (it raises, hands off, or completes), `msize` is not lowered. -/
theorem sequencerStep_msize_le {s t : State} (h : sequencerStep s = .next t) : s.msize ≤ t.msize := by
  rcases sequencerStep_next h with ⟨k, rfl⟩ | ⟨e, -, -, -, rfl⟩ | ⟨e, f, u, good, -, -, -, -, hu, rfl⟩
  · exact Nat.le_refl _
  · exact Nat.le_refl _
  · exact good.msize s u hu

/-- Whichever path of R210 the host takes, and by whichever form of action, `msize` is not lowered. -/
theorem hostAct_msize_le {s t : State} {e : OpInfo} {act : HostAction} (h : s.hostAct e act = some t) :
    s.msize ≤ t.msize := by
  rcases hostAct_cases h with ⟨o, -, -, rfl⟩ | ⟨p, w, c, -, -, rfl⟩ | ⟨ws, -, hws⟩
  · exact Nat.le_refl _
  · exact le_touchAll ..
  · obtain ⟨d, words, -, -, -, completes | halts⟩ := hostWrites_cases hws
    · obtain ⟨-, -, -, -, -, -, hgrows, -⟩ := completesAs_spec.mp completes
      exact hgrows
    · obtain ⟨-, ht⟩ := haltsAs_spec.mp halts
      rw [ht]

/-- Settles O47, by the kinds of step other than a reset. -/
theorem msizeNeverDecreases : Obligations.MsizeNeverDecreases := by
  intro s t hreset hstep
  rcases step_cases hstep with ⟨r, cfg, hr, -⟩ | ⟨-, ans, rfl⟩ | ⟨-, hseq⟩ | ⟨-, -, -, act, later, e, -, -, hact⟩
  · rw [hreset] at hr
    cases hr
  · exact Nat.le_refl _
  · exact sequencerStep_msize_le hseq
  · have hgrows := hostAct_msize_le hact
    exact hgrows

end Sys2Proof.Machine
end

section
/-!
The instructions of class EXT (46_external_opcodes.md R210, R211, R245): what a ready one hands off, and how the host's next
action, a completion or a halt, ends the handoff.
-/

namespace Sys2Proof.Machine

/-- The rows of class EXT have no immediate (R76). -/
theorem extRows_class : ∀ r ∈ extRows, r.info.unitClass = .ext ∧ r.info.imm = 0 := by decide

theorem mem_opcodeMap_of_extRows {r : OpRow} (hr : r ∈ extRows) : r ∈ opcodeMap := by
  simp only [opcodeMap, List.mem_append, hr, or_true]

/-- An instruction of class EXT is its opcode byte alone (R72, R76). -/
theorem encode_extRow {r : OpRow} (hr : r ∈ extRows) : encode (r.build 0) = [r.info.value] := by
  obtain ⟨-, himm⟩ := extRows_class r hr
  exact encode_build (mem_opcodeMap_of_extRows hr) (d := []) himm.symm

/-- A ready instruction of class EXT sets `ext`, and uses one answer of the meter; nothing else changes (R210). -/
theorem exec_extRow {r : OpRow} (hr : r ∈ extRows) {s : State}
    (hready : s.Ready r.info.value r.info.pops r.info.pushes) :
    exec (r.build 0) s = .next { s with ext := true, host := s.host.tick } := by
  obtain ⟨hclass, -⟩ := extRows_class r hr
  obtain ⟨-, hinfo, -, -, -, -, hlookup⟩ := extRows_agree r hr 0
  rcases exec_shape hinfo with ⟨-, hexec⟩ | ⟨hnot, -⟩
  · rw [hexec, handoff_ok (checks_of_ready hlookup rfl rfl rfl hready)]
  · exact absurd hclass hnot

/-- Settles O35: the instructions of the statement, with their bytes and counts, are the rows of class EXT. -/
theorem extInstructionsHandOff : Obligations.ExtInstructionsHandOff := by
  intro p hp
  change p ∈ extRows.map fun r => (r.build 0, r.info.value, r.info.pops, r.info.pushes) at hp
  obtain ⟨r, hr, rfl⟩ := List.mem_map.mp hp
  exact ⟨encode_extRow hr, fun s hready => exec_extRow hr hready⟩

/-- What the host's writes leave at an offset: the byte of the last write to it, or the byte from before. -/
theorem read_writeCells {m : Memory} (hwf : m.wf = true) (cells : List Host.Cell) (a : Nat) :
    (writeCells m cells).read a =
      ((cells.reverse.find? fun c => decide (c.1 = a)).map Prod.snd).getD (m.read a) := by
  induction cells generalizing m with
  | nil => rfl
  | cons c cells ih =>
    rw [writeCells, ih (Memory.write_wf hwf c.1 c.2), List.reverse_cons, List.find?_append, Memory.read_write hwf]
    cases cells.reverse.find? fun d => decide (d.1 = a) with
    | some later => rfl
    | none =>
      by_cases hc : c.1 = a
      · simp [hc]
      · simp [hc, Ne.symm hc]

section
variable {s : State} {e : OpInfo} {pushed : List Word} {touched : List (Nat × Nat)} {written : List Host.Cell}

/-- The ranges of a completion are accepted when those it touches are, and the offsets it writes lie in the memory (R59). -/
theorem hostRanges_accepted {lim : Nat} (htouched : ∀ r ∈ touched, r.2 = 0 ∨ r.1 + r.2 ≤ lim)
    (hwritten : ∀ c ∈ written, c.1 < lim) : ∀ r ∈ hostRanges touched written, r.2 = 0 ∨ r.1 + r.2 ≤ lim := by
  intro r hr
  rcases List.mem_append.mp hr with hr | hr
  · exact htouched r hr
  · obtain ⟨c, hc, rfl⟩ := List.mem_map.mp hr
    exact .inr (hwritten c hc)

theorem hostAct_complete (h : s.mayComplete e pushed (hostRanges touched written) = true) :
    s.hostAct e (.complete pushed touched written) = some (s.hostComplete e pushed touched written) := if_pos h

/-- SELFDESTRUCT is never completed: path 1 of R210 is not open to it (R245). -/
theorem hostAct_complete_selfdestruct (hself : e.value = 0xff) :
    s.hostAct e (.complete pushed touched written) = none := by
  refine if_neg fun hmay => ?_
  obtain ⟨hcomp, -⟩ := mayComplete_spec.mp hmay
  exact hcomp hself

theorem hostAct_halt {h : Halt} (hmay : mayHalt e h = true) :
    s.hostAct e (.halt h) = some { s with halt := h, ext := false } := if_pos hmay

theorem hostAct_halt_eq_none {h : Halt} (hmay : ¬ mayHalt e h = true) : s.hostAct e (.halt h) = none := if_neg hmay

end

/-- Settles O36. The step is `State.hostComplete` on the state with the action taken from the queue; its memory is that of
`read_writeCells`, and its `msize` covers the touched ranges and the written bytes by `touchAll_spec`. -/
theorem hostCompletesTheHandoff : Obligations.HostCompletesTheHandoff := by
  intro s e pushed touched written later hreset hreq hrun hext hlook hclass hself hpops hlen hroom htouched hwritten hwf
    hlim hmod hle hactions
  obtain ⟨-, hvalue⟩ := lookupByValue_some hlook
  have hranges := hostRanges_accepted htouched hwritten
  have hmay : (s.actionTaken later).mayComplete e pushed (hostRanges touched written) = true :=
    mayComplete_spec.mpr ⟨fun h => hself (hvalue.symm.trans h), hpops, hlen, hroom, hranges⟩
  obtain ⟨hmod', hgrows, hle', hcovers⟩ := touchAll_spec hlim hmod hle hranges
  refine ⟨writeCells s.mem written, touchAll s.memLimit s.msize (hostRanges touched written), ?_,
    read_writeCells hwf written, hmod', hgrows, hle', fun r hr => ?_, fun c hc => ?_⟩
  · rw [step_of_action hreset hreq hrun hext (handedOff_iff.mpr ⟨hlook, hclass⟩) hactions, hostAct_complete hmay]
    rfl
  · exact hcovers r (List.mem_append_left _ hr)
  · exact hcovers (c.1, 1) (List.mem_append_right _ (List.mem_map_of_mem hc)) Nat.one_ne_zero

/-- While the host gives no action at a handoff, the model waits with the refusal of R211. -/
theorem step_of_no_action {s : State} (hreset : s.host.reset = none) (hreq : s.host.request = none)
    (hrun : s.halt = .running) (hext : s.ext = true) (hactions : s.host.actions = []) :
    step s = .refused (.handedOff s.pc (s.codeRead s.pc)) := by
  simp only [step, hreset, hreq, blockStep, hrun, hext, if_true, hostStep, hactions]

/-- Settles O37. An empty queue is the refusal of R211; a halt is carried out exactly if `mayHalt` allows it at the opcode
byte; a completion of SELFDESTRUCT is none. -/
theorem hostHaltsTheHandoff : Obligations.HostHaltsTheHandoff := by
  intro s hreset hreq hrun hext
  refine ⟨step_of_no_action hreset hreq hrun hext, fun e h later hlook hclass hactions => ?_,
    fun pushed touched written later hself hactions => ?_⟩
  · obtain ⟨-, hvalue⟩ := lookupByValue_some hlook
    rw [step_of_action hreset hreq hrun hext (handedOff_iff.mpr ⟨hlook, hclass⟩) hactions, ← hvalue]
    refine ⟨fun hallowed => ?_, fun hforbidden => ?_⟩
    · have hmay : mayHalt e h = true := mayHalt_iff.mpr (hallowed.imp_right And.symm)
      rw [hostAct_halt hmay]
      rfl
    · have hmay : ¬ mayHalt e h = true := by
        rw [mayHalt_iff]
        rcases hforbidden with rfl | rfl | ⟨rfl, hother⟩
        · simp
        · simp
        · simpa using hother
      rw [hostAct_halt_eq_none hmay]
      rfl
  · have hlook : lookupByValue (s.codeRead s.pc) = some infoSelfdestruct := by rw [hself]; rfl
    rw [step_of_action hreset hreq hrun hext (handedOff_iff.mpr ⟨hlook, rfl⟩) hactions,
      hostAct_complete_selfdestruct rfl]
    rfl

end Sys2Proof.Machine
end

section
/-!
Exceptions (60_exceptions.md R303 to R313, R324): each check of a step raises its kind, an exception changes `halt` only, and a
halted block has no step.
-/

namespace Sys2Proof.Machine

/-- Settles O41. A sequencer step that does not raise ends in no exception: a handoff leaves `halt = Running`, and an effect
halts only by Normal or Revert. -/
theorem exceptionsArePrecise : Obligations.ExceptionsArePrecise := by
  intro s t k hen hstep hexc
  rw [step_of_enabled hen] at hstep
  obtain ⟨-, -, hrun, -⟩ := hen
  rcases sequencerStep_next hstep with ⟨k', rfl⟩ | ⟨e, -, -, -, rfl⟩ | ⟨e, f, u, good, -, -, -, -, hu, rfl⟩
  · obtain rfl : k' = k := Halt.exception.inj hexc
    rfl
  · exact absurd (hrun.symm.trans hexc) nofun
  · exact absurd hexc (good.halt_ne_exception hrun hu k)

/-- An opcode of class EXT whose check fails. -/
theorem handoff_check {e : OpInfo} {s : State} {k : ErrorKind} (hc : s.checks e = some k) :
    handoff e s = .next (s.raise k) := by
  rw [handoff, hc]

/-- A check that fails raises its kind, whatever the instruction would do at step 7 (R170, R311). -/
theorem exec_of_checks {i : Instr} {e : OpInfo} {s : State} {k : ErrorKind} (hi : i.info = some e)
    (hc : s.checks e = some k) : exec i s = .next (s.raise k) := by
  rcases exec_shape hi with ⟨-, handsOff⟩ | ⟨-, f, -, issues⟩
  · rw [handsOff, handoff_check hc]
  · rw [issues, issue_check hc]

/-- An instruction of the opcode map is activated by the bit of its opcode in the mask (R32). -/
theorem isActive_info {i : Instr} {e : OpInfo} (hi : i.info = some e) (s : State) :
    s.isActive e.value = s.cfg.active.getLsbD i.opcode.toNat := by
  obtain ⟨hlookup, hvalue⟩ := lookupByValue_opcode hi
  rw [hvalue, isActive_of_lookup hlookup]

section
variable {s : State} {e : OpInfo}

/-- Legality is the first check (R303). -/
theorem checks_of_inactive (hact : s.isActive e.value = false) : s.checks e = some .illegalOperation := if_pos hact

/-- Of an activated opcode the operands are checked first (R305). -/
theorem checks_of_underflow (hact : s.isActive e.value = true) (hpops : s.stack.length < e.pops) :
    s.checks e = some .stackUnderflow := by
  simp [State.checks, State.sp, hact, hpops]

/-- With the operands there, the room for the result is checked next (R306). -/
theorem checks_of_overflow (hact : s.isActive e.value = true) (hpops : e.pops ≤ s.stack.length)
    (hroom : s.stackLimit < s.stack.length - e.pops + e.pushes) : s.checks e = some .stackOverflow := by
  simp [State.checks, State.sp, hact, Nat.not_lt.mpr hpops, hroom]

/-- With operands and room there, the meter is asked last (R308). -/
theorem checks_of_exhausted (hact : s.isActive e.value = true) (hpops : e.pops ≤ s.stack.length)
    (hroom : s.stack.length - e.pops + e.pushes ≤ s.stackLimit) (hmeter : s.host.meter = some 0) :
    s.checks e = some .outOfResource := by
  simp [State.checks, State.sp, State.meterExhausted, hact, Nat.not_lt.mpr hpops, Nat.not_lt.mpr hroom, hmeter]

end

/-- Settles O39: legality is the first check of every opcode. -/
theorem inactiveOpcodeRaisesIllegalOperation : Obligations.InactiveOpcodeRaisesIllegalOperation := fun _ _ s hi hact =>
  exec_of_checks hi (checks_of_inactive ((isActive_info hi s).trans hact))

/-- Settles O40: the three checks after legality, each when those before it pass. -/
theorem exceptionPriorityOfTheChecks : Obligations.ExceptionPriorityOfTheChecks := by
  intro i e s hi hbit
  have hact : s.isActive e.value = true := (isActive_info hi s).trans hbit
  exact ⟨fun hpops => exec_of_checks hi (checks_of_underflow hact hpops),
    fun hpops hroom => exec_of_checks hi (checks_of_overflow hact hpops hroom),
    fun hpops hroom hmeter => exec_of_checks hi (checks_of_exhausted hact hpops hroom hmeter)⟩

/-- A halted block has no step of its own (R324). -/
theorem blockStep_of_halted {s : State} (hhalt : s.halt ≠ .running) : blockStep s = .fault .halted := by
  unfold blockStep
  split
  · exact absurd ‹_› hhalt
  · rfl

/-- Settles O45: of the kinds of step, the sequencer's and the host's at a handoff need `halt = Running`, which leaves the answer
of the ALU port. -/
theorem haltedIsFinal : Obligations.HaltedIsFinal := by
  intro s hhalt hreset
  refine ⟨fun hreq => ?_, fun t hstep => ?_⟩
  · simp only [step, hreset, hreq, blockStep_of_halted hhalt]
  · rcases step_cases hstep with ⟨r, cfg, hr, -⟩ | ⟨-, ans, rfl⟩ | ⟨⟨-, -, hrun, -⟩, -⟩ | ⟨-, hrun, -⟩
    · rw [hreset] at hr
      cases hr
    · rfl
    · exact absurd hrun hhalt
    · exact absurd hrun hhalt

end Sys2Proof.Machine
end

section
/-!
The trace is write-only (70_reset_and_hazards.md R321, 44_seq_stack_control.md R172): no part of a step reads it, so a step from
another history appends the same events.
-/

namespace Sys2Proof.Machine

/-- A step function that only appends to the trace: from any other history it appends the same events, and leaves every other
part of the state the same (R321). -/
def TraceBlind (run : State → StepOutcome) : Prop :=
  ∀ (s t : State) (past : List TraceEvent), run s = .next t →
    ∃ added, t.trace = s.trace ++ added ∧ run { s with trace := past } = .next { t with trace := past ++ added }

/-- A step that leaves the trace, from one history as from another, appends no event. -/
theorem appends_nothing {run : State → StepOutcome} {s t : State} {past : List TraceEvent} (htrace : t.trace = s.trace)
    (hrun : run { s with trace := past } = .next { t with trace := past }) :
    ∃ added, t.trace = s.trace ++ added ∧ run { s with trace := past } = .next { t with trace := past ++ added } :=
  ⟨[], by rw [htrace, List.append_nil], by rw [hrun, List.append_nil]⟩

/-- The checks of a step do not read the trace. -/
theorem checks_trace (s : State) (past : List TraceEvent) (e : OpInfo) :
    State.checks { s with trace := past } e = s.checks e := rfl

/-- A handoff neither reads nor writes the trace (R210). -/
theorem handoff_traceBlind (e : OpInfo) : TraceBlind (handoff e) := by
  intro s t past h
  rcases handoff_cases e s with ⟨k, hchecks, raises⟩ | ⟨hchecks, handsOff⟩
  · obtain rfl : s.raise k = t := Host.Outcome.next.inj (raises.symm.trans h)
    exact appends_nothing rfl (handoff_check ((checks_trace s past e).trans hchecks))
  · obtain rfl := Host.Outcome.next.inj (handsOff.symm.trans h)
    exact appends_nothing rfl (handoff_ok ((checks_trace s past e).trans hchecks))

/-- Completion of an effect appends one event, which says nothing of the history before it (R172); raising appends none. -/
theorem issue_traceBlind {e : OpInfo} {f : State → Except ErrorKind State} (good : GoodEffect e f) :
    TraceBlind (issue e f) := by
  intro s t past h
  have heffect := good.trace s past
  rcases issue_cases e f s with ⟨k, hchecks, raises⟩ | ⟨k, hchecks, herror, raises⟩ | ⟨u, hchecks, hok, completes⟩
  · obtain rfl : s.raise k = t := Host.Outcome.next.inj (raises.symm.trans h)
    exact appends_nothing rfl (issue_check ((checks_trace s past e).trans hchecks))
  · obtain rfl : s.raise k = t := Host.Outcome.next.inj (raises.symm.trans h)
    rw [herror] at heffect
    exact appends_nothing rfl (issue_error ((checks_trace s past e).trans hchecks) heffect)
  · obtain rfl : s.retire e.value u = t := Host.Outcome.next.inj (completes.symm.trans h)
    rw [hok] at heffect
    have completes' := issue_ok (t := { u with trace := past }) ((checks_trace s past e).trans hchecks) heffect
    exact ⟨_, State.retire_trace s e.value u, completes'⟩

/-- No opcode's meaning reads the trace. -/
theorem exec_traceBlind {i : Instr} {e : OpInfo} (hi : i.info = some e) : TraceBlind (exec i) := by
  rcases exec_shape hi with ⟨-, handsOff⟩ | ⟨-, f, good, issues⟩
  · rw [show exec i = handoff e from funext handsOff]
    exact handoff_traceBlind e
  · rw [show exec i = issue e f from funext issues]
    exact issue_traceBlind good

/-- The sequencer runs the instruction that the bytes at `pc` decode to. -/
theorem sequencerStep_of_decode {s : State} {i : Instr} (hdec : decode (s.codeFrom s.pc) = .instr i) :
    sequencerStep s = exec i s := by
  rw [sequencerStep, hdec]

/-- The fetch does not read the trace either: the bytes at `pc` are the same from any history. -/
theorem sequencerStep_traceBlind : TraceBlind sequencerStep := by
  intro s t past h
  rcases sequencerStep_cases s with ⟨hnone, raises⟩ | ⟨i, e, hdec, hi, -, -, -, runs⟩
  · obtain rfl : s.raise .invalidInstruction = t := Host.Outcome.next.inj (raises.symm.trans h)
    exact appends_nothing rfl (sequencerStep_unassigned (s := { s with trace := past }) hnone)
  · rw [sequencerStep_of_decode (s := { s with trace := past }) hdec]
    exact exec_traceBlind hi s t past (runs.symm.trans h)

/-- Settles O44: an enabled step is the sequencer's, from either history. -/
theorem traceHasNoEffect : Obligations.TraceHasNoEffect := by
  intro s t past hen hstep
  have hen' : State.Enabled { s with trace := past } := hen
  rw [step_of_enabled hen] at hstep
  rw [step_of_enabled hen']
  exact sequencerStep_traceBlind s t past hstep

end Sys2Proof.Machine
end

section
/-!
Reset and launch (70_reset_and_hazards.md R340 to R342): the configuration that the host's writes before reset load, and the state
that a reset gives.
-/

namespace Sys2Proof.Machine

/-- A list of writes whose first is carried out. -/
theorem LoadDraft.writeAll_cons {d d₁ : LoadDraft} {w : HostWrite} {ws : List HostWrite} (h : d.write w = some d₁) :
    d.writeAll (w :: ws) = d₁.writeAll ws := by
  simp only [LoadDraft.writeAll, h]

/-- Writes in a row are those of the first list and then those of the second. -/
theorem LoadDraft.writeAll_append {d d₁ : LoadDraft} {ws vs : List HostWrite} (h : d.writeAll ws = some d₁) :
    d.writeAll (ws ++ vs) = d₁.writeAll vs := by
  induction ws generalizing d with
  | nil =>
    obtain rfl : d = d₁ := Option.some.inj h
    rfl
  | cons w ws ih =>
    rw [List.cons_append]
    simp only [LoadDraft.writeAll] at h ⊢
    split at h
    · exact ih h
    · cases h

/-- A write of the code byte right after `loaded` puts it there, in place of the byte that stood there, if any. -/
theorem LoadDraft.write_code {d : LoadDraft} {loaded after : List (Option Byte)} (b : Byte)
    (hcode : d.code = loaded ++ after) (hlt : loaded.length < Config.maxCodeLen) :
    d.write (.code loaded.length b) = some { d with code := (loaded ++ [some b]) ++ after.drop 1 } := by
  rw [LoadDraft.write, if_pos hlt, hcode]
  cases after <;> simp

/-- Writing the bytes of `code` in their order, from the offset after those of `loaded` on, loads them there. -/
theorem LoadDraft.writeAll_code {d : LoadDraft} {loaded after : List (Option Byte)} {code : List Byte}
    (hcode : d.code = loaded ++ after) (hlen : loaded.length + code.length ≤ Config.maxCodeLen) :
    d.writeAll (code.mapIdx fun i b => .code (loaded.length + i) b) =
      some { d with code := loaded ++ (code.map some ++ after.drop code.length) } := by
  induction code generalizing d loaded after with
  | nil =>
    cases d
    subst hcode
    rfl
  | cons b bs ih =>
    rw [List.length_cons] at hlen
    have hfirst := LoadDraft.write_code b hcode (by omega)
    have hrest := ih (d := { d with code := (loaded ++ [some b]) ++ after.drop 1 }) (loaded := loaded ++ [some b]) rfl
      (by simp; omega)
    rw [List.mapIdx_cons, Nat.add_zero, LoadDraft.writeAll_cons hfirst]
    simpa [Nat.add_assoc, Nat.add_comm 1] using hrest

/-- Writes of `CODELEN`, `ACTIVE` and `OPTS` by number, with legal values (R38). -/
theorem LoadDraft.writeAll_regs (d : LoadDraft) {n : Nat} (hn : n ≤ Config.maxCodeLen) (active : BitVec 256) (opts : Byte) :
    d.writeAll [.reg 5 n, .reg 6 active.toNat, .reg 9 opts.toNat] =
      some { d with len := n, cfg := LaunchConfig.withOpts { d.cfg with active := active } opts } := by
  have hactive : active.toNat < 2 ^ 256 := active.isLt
  have hopts : opts.toNat < 2 ^ 8 := opts.isLt
  simp only [LoadDraft.writeAll, LoadDraft.write, if_pos hn, if_pos hactive, if_pos hopts, BitVec.ofNat_toNat,
    BitVec.setWidth_eq]

/-- Writing every byte of the code, its length, the mask and the options leaves nothing of the configuration in place (R342). -/
theorem LaunchConfig.load_writes (c : LaunchConfig) {code : List Byte} (hlen : code.length ≤ Config.maxCodeLen)
    (active : BitVec 256) (opts : Byte) :
    c.load (code.mapIdx HostWrite.code ++ [.reg 5 code.length, .reg 6 active.toNat, .reg 9 opts.toNat]) =
      some (LaunchConfig.withOpts { c with code := code, active := active } opts) := by
  have hbytes : c.draft.writeAll (code.mapIdx HostWrite.code) =
      some { c.draft with code := code.map some ++ c.draft.code.drop code.length } := by
    simpa only [List.length_nil, Nat.zero_add, List.nil_append] using
      LoadDraft.writeAll_code (d := c.draft) (loaded := []) (after := c.draft.code) rfl (by simpa using hlen)
  rw [LaunchConfig.load, LoadDraft.writeAll_append hbytes, LoadDraft.writeAll_regs _ hlen]
  simp [allThere_map_some, LaunchConfig.withOpts, LaunchConfig.draft]

/-- A loaded configuration in its legal range is the one of the run that follows. -/
theorem ResetRequest.config_of_load {r : ResetRequest} {c cfg : LaunchConfig}
    (hload : (r.load.getD c).load r.writes = some cfg) (hlen : cfg.code.length ≤ Config.maxCodeLen) :
    r.config c = some cfg := by
  rw [ResetRequest.config, hload]
  exact Option.filter_eq_some_iff.mpr ⟨rfl, decide_eq_true hlen⟩

/-- A reset comes before anything else, in any state (R340). -/
theorem step_of_reset {s : State} {r : ResetRequest} {cfg : LaunchConfig} (hreset : s.host.reset = some r)
    (hcfg : r.config s.cfg = some cfg) :
    step s = .next { s.afterReset with cfg := cfg, host := { s.host with reset := none, meter := r.meter } } := by
  simp only [step, hreset, resetStep, hcfg]

/-- Settles O48: both forms of the load give the configuration stated, and the rest is what `State.afterReset` writes. -/
theorem resetGivesTheStatedValues : Obligations.ResetGivesTheStatedValues := by
  refine ⟨⟨rfl, rfl, rfl, rfl, fun _ => rfl, rfl, rfl, rfl⟩, fun s r cfg hreset hload => ?_⟩
  have hcfg : r.config s.cfg = some cfg := by
    rcases hload with ⟨hnil, rfl, hlen⟩ | ⟨code, active, opts, hlen, hwrites, rfl⟩
    · exact ResetRequest.config_of_load (by rw [hnil, LaunchConfig.load_nil]) hlen
    · exact ResetRequest.config_of_load (by rw [hwrites, LaunchConfig.load_writes _ hlen]; rfl) hlen
  exact ⟨_, step_of_reset hreset hcfg, rfl, rfl, rfl, rfl, fun _ => rfl, rfl, rfl, rfl, rfl, rfl, rfl⟩

/-- Settles O49: `State.reset` is what a reset leaves of itself, with limits in range and no code. -/
theorem invariantHoldsAtReset : Obligations.InvariantHoldsAtReset := by
  have hlimits : State.reset.LimitsInRange := ⟨by decide, by decide, by decide, by decide⟩
  have hpc : State.reset.PcBounded := ⟨Nat.zero_le _, Nat.zero_le _⟩
  exact reset_inv (s := State.reset) hlimits hpc

end Sys2Proof.Machine
end
